-- ==== Sys2Proof/Word.lean ====
section
/-! DEFINITION. The machine's word and octet types (spec/00_scope.md R5, R8, R11). -/

namespace Sys2Proof

/-- The 16-bit word: register, memory cell, immediate, address and I/O datum (R5, R8). -/
abbrev Word := BitVec 16

/-- Eight bits: a byte inside a register (R11), and one cell of the memory list (log 1). -/
abbrev Byte := BitVec 8

end Sys2Proof
end

