-- ==== Sys2Proof/Config.lean ====
section
/-! DEFINITION. What the environment or the platform decides and the spec leaves open: free values.
Each is an opaque constant, so that nothing can be proved of the value it gives. The machine applies
them to the plain counter `State.draws` (and to what the value may depend on). -/

namespace Sys2Proof

/-- The levels of the 8 interrupt signals (bit k is signal k) at a sampling point that the state's
script does not cover: `IRQ_LINES` of spec/00_scope.md R6, 60_exceptions.md R310 (log 6). -/
opaque Config.irqLevels : Nat → BitVec 8

/-- The number the priority decoder offers for a set of several enabled asserted signals:
`IRQ_PRIORITY` of spec/00_scope.md R6, 60_exceptions.md R312 (log 7). Taken modulo the set by
`Machine.selectIrq`, so that only a member of the set is ever taken. -/
opaque Config.irqChoice : Nat → BitVec 8 → Fin 8

/-- The environment's answer to an I/O read of an address: `IO_DEVICES` of spec/00_scope.md R6,
46_io.md R225 (log 8). -/
opaque Config.ioAnswer : Nat → Word → Word

/-- The assembler's quotient where the spec does not state it: a division by zero or one that leaves
a remainder (spec/47_assembler.md R263; log 33). -/
opaque Config.asmQuotient : Int → Int → Int

/-- The assembler's left shift by a negative count or of a negative number (spec/47_assembler.md R263; log 33). -/
opaque Config.asmShiftLeft : Int → Int → Int

/-- The assembler's right shift by a negative count or of a negative number (spec/47_assembler.md R263;
log 33). -/
opaque Config.asmShiftRight : Int → Int → Int

/-- What `$` stands for in a directive, where there is no current instruction, from the address of the next
word to be emitted (spec/47_assembler.md R262; log 33). -/
opaque Config.asmHere : Word → Int

/-- What `$$` stands for in a directive (spec/47_assembler.md R262; log 33). -/
opaque Config.asmNext : Word → Int

end Sys2Proof
end

