-- ==== Sys2Proof/Syntax.lean ====
section
/-! DEFINITION. The syntax of the machine: condition modes, register numbers, flag indices and one
constructor of `Instr` for each of the 128 (opcode, I) pairs of spec/30_encoding.md R92. -/

namespace Sys2Proof

/-- A general register number (spec/10_state.md R21, R22): R6 is the kernel stack pointer (R23),
R7 the program counter (R24). -/
inductive Reg where
  | r0 | r1 | r2 | r3 | r4 | r5 | r6 | r7
deriving DecidableEq, Repr

/-- The condition mode M, bits 8:6 (spec/30_encoding.md R84), named by the assembler's prefixes. -/
inductive CondMode where
  /-- 000: always execute. -/
  | always
  /-- 001, `NC.`: skip if carry is set. -/
  | nc
  /-- 010, `NZ.`: skip if zero is set. -/
  | nz
  /-- 011, `NS.`: skip if sign is set. -/
  | ns
  /-- 100, `NX.`: never execute. -/
  | never
  /-- 101, `C.`: skip if carry is not set. -/
  | c
  /-- 110, `Z.`: skip if zero is not set. -/
  | z
  /-- 111, `S.`: skip if sign is not set. -/
  | s
deriving DecidableEq, Repr

/-- The flag index that SFL reads in its dst field (spec/30_encoding.md R88). -/
inductive FlagIndex where
  | clearC | clearZ | clearS | clearI | setC | setZ | setS | setI
deriving DecidableEq, Repr

/-- The decoded fields of an instruction (spec/30_encoding.md R80, R81): `imm` is the immediate word
when `hasImm` (the I flag) is set, and zero otherwise. -/
structure Fields where
  op : BitVec 6
  hasImm : Bool
  mode : CondMode
  dst : BitVec 3
  src : BitVec 3
  imm : Word
deriving DecidableEq, Repr

/-- One constructor per (opcode, I) pair of spec/30_encoding.md R92, in the order of the opcode table.
A constructor holds EVERY field of the format, the unused ones too (R93, R94): condition mode, dst
field, src field and, where I = 1, the immediate. -/
inductive Instr where
  /-- op 0x00, I=0: `MOV dst, src` (R112). -/
  | movRegReg (m : CondMode) (dst src : Reg)
  /-- op 0x00, I=1: `MOV dst, imm` (R113). -/
  | movRegImm (m : CondMode) (dst src : Reg) (imm : Word)
  /-- op 0x01, I=0: `MOV dst, [src]` (R114). -/
  | movRegInd (m : CondMode) (dst src : Reg)
  /-- op 0x01, I=1: `MOV dst, [imm]` (R115). -/
  | movRegAbs (m : CondMode) (dst src : Reg) (imm : Word)
  /-- op 0x02, I=0: `MOV [dst], src` (R116). -/
  | movIndReg (m : CondMode) (dst src : Reg)
  /-- op 0x02, I=1: `MOV [dst], imm` (R117). -/
  | movIndImm (m : CondMode) (dst src : Reg) (imm : Word)
  /-- op 0x03, I=0: `MOV [dst], [src]` (R118). -/
  | movIndInd (m : CondMode) (dst src : Reg)
  /-- op 0x03, I=1: `MOV [dst], [imm]` (R119). -/
  | movIndAbs (m : CondMode) (dst src : Reg) (imm : Word)
  /-- op 0x04, I=0: `MOV dst, [src++]` (R122). -/
  | movRegPostInc (m : CondMode) (dst src : Reg)
  /-- op 0x04, I=1: `MOV [imm], src` (R120). -/
  | movAbsReg (m : CondMode) (dst src : Reg) (imm : Word)
  /-- op 0x05, I=0: `MOV [dst++], src` (R123). -/
  | movPostIncReg (m : CondMode) (dst src : Reg)
  /-- op 0x05, I=1: `MOV [imm], [src]` (R121). -/
  | movAbsInd (m : CondMode) (dst src : Reg) (imm : Word)
  /-- op 0x06, I=0: `MVL dst, src` (R126). -/
  | mvl (m : CondMode) (dst src : Reg)
  /-- op 0x06, I=1: `MOV dst, [src+imm]` (R124). -/
  | movRegDisp (m : CondMode) (dst src : Reg) (imm : Word)
  /-- op 0x07, I=0: `MVH dst, src` (R127). -/
  | mvh (m : CondMode) (dst src : Reg)
  /-- op 0x07, I=1: `MOV [dst], [src+imm]` (R125). -/
  | movIndDisp (m : CondMode) (dst src : Reg) (imm : Word)
  /-- op 0x08, I=0: `NUL dst` (R130). -/
  | nul (m : CondMode) (dst src : Reg)
  /-- op 0x08, I=1: `MOV [dst+imm], src` (R128). -/
  | movDispReg (m : CondMode) (dst src : Reg) (imm : Word)
  /-- op 0x09, I=0: `MKW dst, src` (R131). -/
  | mkw (m : CondMode) (dst src : Reg)
  /-- op 0x09, I=1: `MOV [dst+imm], [src]` (R129). -/
  | movDispInd (m : CondMode) (dst src : Reg) (imm : Word)
  /-- op 0x0A, I=0: `MOV dst, $SW` (R141). -/
  | movRegSw (m : CondMode) (dst src : Reg)
  /-- op 0x0A, I=1: `MOV [imm], $SW` (R142). -/
  | movAbsSw (m : CondMode) (dst src : Reg) (imm : Word)
  /-- op 0x0B, I=0: `MOV $SW, dst` (R143). -/
  | movSwReg (m : CondMode) (dst src : Reg)
  /-- op 0x0B, I=1: `MOV $SW, imm` (R144). -/
  | movSwImm (m : CondMode) (dst src : Reg) (imm : Word)
  /-- op 0x0C, I=0: `MOV [dst--], src` (R145). -/
  | movPostDecReg (m : CondMode) (dst src : Reg)
  /-- op 0x0C, I=1: `MOV [dst--], imm` (R146). -/
  | movPostDecImm (m : CondMode) (dst src : Reg) (imm : Word)
  /-- op 0x0D, I=0: `MOV [dst--], $SW` (R147). -/
  | movPostDecSw (m : CondMode) (dst src : Reg)
  /-- op 0x0D, I=1: `MOV {imm}, src` (R227). -/
  | outAbsReg (m : CondMode) (dst src : Reg) (imm : Word)
  /-- op 0x0E, I=0: `MOV dst, [++src]` (R148). -/
  | movRegPreInc (m : CondMode) (dst src : Reg)
  /-- op 0x0E, I=1: `ILLEGAL op=0x0E I=1` (R95). -/
  | illegal0EImm (m : CondMode) (dst src : Reg) (imm : Word)
  /-- op 0x0F, I=0: `MOV $SW, [++src]` (R149). -/
  | movSwPreInc (m : CondMode) (dst src : Reg)
  /-- op 0x0F, I=1: `ILLEGAL op=0x0F I=1` (R95). -/
  | illegal0FImm (m : CondMode) (dst src : Reg) (imm : Word)
  /-- op 0x10, I=0: `ADD dst, src` (R162). -/
  | addReg (m : CondMode) (dst src : Reg)
  /-- op 0x10, I=1: `ADD dst, imm` (R163). -/
  | addImm (m : CondMode) (dst src : Reg) (imm : Word)
  /-- op 0x11, I=0: `ADC dst, src` (R164). -/
  | adcReg (m : CondMode) (dst src : Reg)
  /-- op 0x11, I=1: `ADC dst, imm` (R165). -/
  | adcImm (m : CondMode) (dst src : Reg) (imm : Word)
  /-- op 0x12, I=0: `ASS dst, src` (R166). -/
  | assReg (m : CondMode) (dst src : Reg)
  /-- op 0x12, I=1: `ASS dst, imm` (R167). -/
  | assImm (m : CondMode) (dst src : Reg) (imm : Word)
  /-- op 0x13, I=0: `SUB dst, src` (R168). -/
  | subReg (m : CondMode) (dst src : Reg)
  /-- op 0x13, I=1: `ILLEGAL op=0x13 I=1` (R95). -/
  | illegal13Imm (m : CondMode) (dst src : Reg) (imm : Word)
  /-- op 0x14, I=0: `SBC dst, src` (R169). -/
  | sbcReg (m : CondMode) (dst src : Reg)
  /-- op 0x14, I=1: `ILLEGAL op=0x14 I=1` (R95). -/
  | illegal14Imm (m : CondMode) (dst src : Reg) (imm : Word)
  /-- op 0x15, I=0: `INC dst, src` (R170). -/
  | incReg (m : CondMode) (dst src : Reg)
  /-- op 0x15, I=1: `ILLEGAL op=0x15 I=1` (R95). -/
  | illegal15Imm (m : CondMode) (dst src : Reg) (imm : Word)
  /-- op 0x16, I=0: `DEC dst, src` (R171). -/
  | decReg (m : CondMode) (dst src : Reg)
  /-- op 0x16, I=1: `ILLEGAL op=0x16 I=1` (R95). -/
  | illegal16Imm (m : CondMode) (dst src : Reg) (imm : Word)
  /-- op 0x17, I=0: `SHL dst, src` (R181). -/
  | shlReg (m : CondMode) (dst src : Reg)
  /-- op 0x17, I=1: `ILLEGAL op=0x17 I=1` (R95). -/
  | illegal17Imm (m : CondMode) (dst src : Reg) (imm : Word)
  /-- op 0x18, I=0: `ROL dst, src` (R182). -/
  | rolReg (m : CondMode) (dst src : Reg)
  /-- op 0x18, I=1: `ILLEGAL op=0x18 I=1` (R95). -/
  | illegal18Imm (m : CondMode) (dst src : Reg) (imm : Word)
  /-- op 0x19, I=0: `SHR dst, src` (R183). -/
  | shrReg (m : CondMode) (dst src : Reg)
  /-- op 0x19, I=1: `ILLEGAL op=0x19 I=1` (R95). -/
  | illegal19Imm (m : CondMode) (dst src : Reg) (imm : Word)
  /-- op 0x1A, I=0: `ROR dst, src` (R184). -/
  | rorReg (m : CondMode) (dst src : Reg)
  /-- op 0x1A, I=1: `ILLEGAL op=0x1A I=1` (R95). -/
  | illegal1AImm (m : CondMode) (dst src : Reg) (imm : Word)
  /-- op 0x1B, I=0: `NOT dst, src` (R185). -/
  | notReg (m : CondMode) (dst src : Reg)
  /-- op 0x1B, I=1: `ILLEGAL op=0x1B I=1` (R95). -/
  | illegal1BImm (m : CondMode) (dst src : Reg) (imm : Word)
  /-- op 0x1C, I=0: `NEG dst, src` (R186). -/
  | negReg (m : CondMode) (dst src : Reg)
  /-- op 0x1C, I=1: `ILLEGAL op=0x1C I=1` (R95). -/
  | illegal1CImm (m : CondMode) (dst src : Reg) (imm : Word)
  /-- op 0x1D, I=0: `ANL dst, src` (R187). -/
  | anlReg (m : CondMode) (dst src : Reg)
  /-- op 0x1D, I=1: `ANL dst, imm` (R188). -/
  | anlImm (m : CondMode) (dst src : Reg) (imm : Word)
  /-- op 0x1E, I=0: `ORL dst, src` (R189). -/
  | orlReg (m : CondMode) (dst src : Reg)
  /-- op 0x1E, I=1: `ORL dst, imm` (R190). -/
  | orlImm (m : CondMode) (dst src : Reg) (imm : Word)
  /-- op 0x1F, I=0: `XOR dst, src` (R191). -/
  | xorReg (m : CondMode) (dst src : Reg)
  /-- op 0x1F, I=1: `XOR dst, imm` (R192). -/
  | xorImm (m : CondMode) (dst src : Reg) (imm : Word)
  /-- op 0x20, I=0: `SFL index` (R201). -/
  | sfl (m : CondMode) (idx : FlagIndex) (src : Reg)
  /-- op 0x20, I=1: `ILLEGAL op=0x20 I=1` (R95). -/
  | illegal20Imm (m : CondMode) (dst src : Reg) (imm : Word)
  /-- op 0x21, I=0: `SEX dst, src` (R203). -/
  | sexReg (m : CondMode) (dst src : Reg)
  /-- op 0x21, I=1: `SEX dst, imm` (R204). -/
  | sexImm (m : CondMode) (dst src : Reg) (imm : Word)
  /-- op 0x22, I=0: `TMC / TMC src` (R205). -/
  | tmcReg (m : CondMode) (dst src : Reg)
  /-- op 0x22, I=1: `TMC imm` (R206). -/
  | tmcImm (m : CondMode) (dst src : Reg) (imm : Word)
  /-- op 0x23, I=0: `CMP dst, src` (R216). -/
  | cmpReg (m : CondMode) (dst src : Reg)
  /-- op 0x23, I=1: `CMP dst, imm` (R217). -/
  | cmpImm (m : CondMode) (dst src : Reg) (imm : Word)
  /-- op 0x24, I=0: `TST dst, src` (R218). -/
  | tstReg (m : CondMode) (dst src : Reg)
  /-- op 0x24, I=1: `TST dst, imm` (R219). -/
  | tstImm (m : CondMode) (dst src : Reg) (imm : Word)
  /-- op 0x25, I=0: `MOV {dst}, src` (R228). -/
  | outIndReg (m : CondMode) (dst src : Reg)
  /-- op 0x25, I=1: `MOV {dst}, imm` (R229). -/
  | outIndImm (m : CondMode) (dst src : Reg) (imm : Word)
  /-- op 0x26, I=0: `MOV dst, {src}` (R230). -/
  | inRegInd (m : CondMode) (dst src : Reg)
  /-- op 0x26, I=1: `MOV dst, {imm}` (R231). -/
  | inRegAbs (m : CondMode) (dst src : Reg) (imm : Word)
  /-- op 0x27, I=0: `ILLEGAL op=0x27 I=0` (R95). -/
  | illegal27Word (m : CondMode) (dst src : Reg)
  /-- op 0x27, I=1: `ILLEGAL op=0x27 I=1` (R95). -/
  | illegal27Imm (m : CondMode) (dst src : Reg) (imm : Word)
  /-- op 0x28, I=0: `ILLEGAL op=0x28 I=0` (R95). -/
  | illegal28Word (m : CondMode) (dst src : Reg)
  /-- op 0x28, I=1: `ILLEGAL op=0x28 I=1` (R95). -/
  | illegal28Imm (m : CondMode) (dst src : Reg) (imm : Word)
  /-- op 0x29, I=0: `ILLEGAL op=0x29 I=0` (R95). -/
  | illegal29Word (m : CondMode) (dst src : Reg)
  /-- op 0x29, I=1: `ILLEGAL op=0x29 I=1` (R95). -/
  | illegal29Imm (m : CondMode) (dst src : Reg) (imm : Word)
  /-- op 0x2A, I=0: `ILLEGAL op=0x2A I=0` (R95). -/
  | illegal2AWord (m : CondMode) (dst src : Reg)
  /-- op 0x2A, I=1: `ILLEGAL op=0x2A I=1` (R95). -/
  | illegal2AImm (m : CondMode) (dst src : Reg) (imm : Word)
  /-- op 0x2B, I=0: `ILLEGAL op=0x2B I=0` (R95). -/
  | illegal2BWord (m : CondMode) (dst src : Reg)
  /-- op 0x2B, I=1: `ILLEGAL op=0x2B I=1` (R95). -/
  | illegal2BImm (m : CondMode) (dst src : Reg) (imm : Word)
  /-- op 0x2C, I=0: `ILLEGAL op=0x2C I=0` (R95). -/
  | illegal2CWord (m : CondMode) (dst src : Reg)
  /-- op 0x2C, I=1: `ILLEGAL op=0x2C I=1` (R95). -/
  | illegal2CImm (m : CondMode) (dst src : Reg) (imm : Word)
  /-- op 0x2D, I=0: `ILLEGAL op=0x2D I=0` (R95). -/
  | illegal2DWord (m : CondMode) (dst src : Reg)
  /-- op 0x2D, I=1: `ILLEGAL op=0x2D I=1` (R95). -/
  | illegal2DImm (m : CondMode) (dst src : Reg) (imm : Word)
  /-- op 0x2E, I=0: `ILLEGAL op=0x2E I=0` (R95). -/
  | illegal2EWord (m : CondMode) (dst src : Reg)
  /-- op 0x2E, I=1: `ILLEGAL op=0x2E I=1` (R95). -/
  | illegal2EImm (m : CondMode) (dst src : Reg) (imm : Word)
  /-- op 0x2F, I=0: `ILLEGAL op=0x2F I=0` (R95). -/
  | illegal2FWord (m : CondMode) (dst src : Reg)
  /-- op 0x2F, I=1: `ILLEGAL op=0x2F I=1` (R95). -/
  | illegal2FImm (m : CondMode) (dst src : Reg) (imm : Word)
  /-- op 0x30, I=0: `ILLEGAL op=0x30 I=0` (R95). -/
  | illegal30Word (m : CondMode) (dst src : Reg)
  /-- op 0x30, I=1: `ILLEGAL op=0x30 I=1` (R95). -/
  | illegal30Imm (m : CondMode) (dst src : Reg) (imm : Word)
  /-- op 0x31, I=0: `ILLEGAL op=0x31 I=0` (R95). -/
  | illegal31Word (m : CondMode) (dst src : Reg)
  /-- op 0x31, I=1: `ILLEGAL op=0x31 I=1` (R95). -/
  | illegal31Imm (m : CondMode) (dst src : Reg) (imm : Word)
  /-- op 0x32, I=0: `ILLEGAL op=0x32 I=0` (R95). -/
  | illegal32Word (m : CondMode) (dst src : Reg)
  /-- op 0x32, I=1: `ILLEGAL op=0x32 I=1` (R95). -/
  | illegal32Imm (m : CondMode) (dst src : Reg) (imm : Word)
  /-- op 0x33, I=0: `ILLEGAL op=0x33 I=0` (R95). -/
  | illegal33Word (m : CondMode) (dst src : Reg)
  /-- op 0x33, I=1: `ILLEGAL op=0x33 I=1` (R95). -/
  | illegal33Imm (m : CondMode) (dst src : Reg) (imm : Word)
  /-- op 0x34, I=0: `ILLEGAL op=0x34 I=0` (R95). -/
  | illegal34Word (m : CondMode) (dst src : Reg)
  /-- op 0x34, I=1: `ILLEGAL op=0x34 I=1` (R95). -/
  | illegal34Imm (m : CondMode) (dst src : Reg) (imm : Word)
  /-- op 0x35, I=0: `ILLEGAL op=0x35 I=0` (R95). -/
  | illegal35Word (m : CondMode) (dst src : Reg)
  /-- op 0x35, I=1: `ILLEGAL op=0x35 I=1` (R95). -/
  | illegal35Imm (m : CondMode) (dst src : Reg) (imm : Word)
  /-- op 0x36, I=0: `ILLEGAL op=0x36 I=0` (R95). -/
  | illegal36Word (m : CondMode) (dst src : Reg)
  /-- op 0x36, I=1: `ILLEGAL op=0x36 I=1` (R95). -/
  | illegal36Imm (m : CondMode) (dst src : Reg) (imm : Word)
  /-- op 0x37, I=0: `ILLEGAL op=0x37 I=0` (R95). -/
  | illegal37Word (m : CondMode) (dst src : Reg)
  /-- op 0x37, I=1: `ILLEGAL op=0x37 I=1` (R95). -/
  | illegal37Imm (m : CondMode) (dst src : Reg) (imm : Word)
  /-- op 0x38, I=0: `ILLEGAL op=0x38 I=0` (R95). -/
  | illegal38Word (m : CondMode) (dst src : Reg)
  /-- op 0x38, I=1: `ILLEGAL op=0x38 I=1` (R95). -/
  | illegal38Imm (m : CondMode) (dst src : Reg) (imm : Word)
  /-- op 0x39, I=0: `ILLEGAL op=0x39 I=0` (R95). -/
  | illegal39Word (m : CondMode) (dst src : Reg)
  /-- op 0x39, I=1: `ILLEGAL op=0x39 I=1` (R95). -/
  | illegal39Imm (m : CondMode) (dst src : Reg) (imm : Word)
  /-- op 0x3A, I=0: `ILLEGAL op=0x3A I=0` (R95). -/
  | illegal3AWord (m : CondMode) (dst src : Reg)
  /-- op 0x3A, I=1: `ILLEGAL op=0x3A I=1` (R95). -/
  | illegal3AImm (m : CondMode) (dst src : Reg) (imm : Word)
  /-- op 0x3B, I=0: `ILLEGAL op=0x3B I=0` (R95). -/
  | illegal3BWord (m : CondMode) (dst src : Reg)
  /-- op 0x3B, I=1: `ILLEGAL op=0x3B I=1` (R95). -/
  | illegal3BImm (m : CondMode) (dst src : Reg) (imm : Word)
  /-- op 0x3C, I=0: `ILLEGAL op=0x3C I=0` (R95). -/
  | illegal3CWord (m : CondMode) (dst src : Reg)
  /-- op 0x3C, I=1: `ILLEGAL op=0x3C I=1` (R95). -/
  | illegal3CImm (m : CondMode) (dst src : Reg) (imm : Word)
  /-- op 0x3D, I=0: `ILLEGAL op=0x3D I=0` (R95). -/
  | illegal3DWord (m : CondMode) (dst src : Reg)
  /-- op 0x3D, I=1: `ILLEGAL op=0x3D I=1` (R95). -/
  | illegal3DImm (m : CondMode) (dst src : Reg) (imm : Word)
  /-- op 0x3E, I=0: `ILLEGAL op=0x3E I=0` (R95). -/
  | illegal3EWord (m : CondMode) (dst src : Reg)
  /-- op 0x3E, I=1: `ILLEGAL op=0x3E I=1` (R95). -/
  | illegal3EImm (m : CondMode) (dst src : Reg) (imm : Word)
  /-- op 0x3F, I=0: `ILLEGAL op=0x3F I=0` (R95). -/
  | illegal3FWord (m : CondMode) (dst src : Reg)
  /-- op 0x3F, I=1: `ILLEGAL op=0x3F I=1` (R95). -/
  | illegal3FImm (m : CondMode) (dst src : Reg) (imm : Word)
deriving DecidableEq, Repr

end Sys2Proof
end

