-- ==== Sys2Proof/Machine/Flags.lean ====
section
/-! DEFINITION. The status word and every flag computation (spec/10_state.md R28 to R34,
spec/30_encoding.md R84, spec/42_arithmetic.md R160). Functions on the 16-bit word SW, which stays whole
because instructions read and write it whole. -/

namespace Sys2Proof.Machine

/-! ## The fields of SW (spec/10_state.md R28) -/

/-- C, carry: SW[0]. -/
def flagC (sw : Word) : Bool := sw.getLsbD 0

/-- Z, zero: SW[1]. -/
def flagZ (sw : Word) : Bool := sw.getLsbD 1

/-- S, sign: SW[2]. -/
def flagS (sw : Word) : Bool := sw.getLsbD 2

/-- I, interrupt enable: SW[3] (R30). -/
def flagI (sw : Word) : Bool := sw.getLsbD 3

/-- U, user mode: SW[4]; clear is kernel mode (R31). -/
def flagU (sw : Word) : Bool := sw.getLsbD 4

/-- M, MMU enable: SW[5]; plain storage, since no MMU is attached (R32, log 14). -/
def flagM (sw : Word) : Bool := sw.getLsbD 5

/-- I7..I0: SW[15:8]; bit k set enables interrupt k (R30, the spec's decision D19: log 11). -/
def irqMask (sw : Word) : BitVec 8 := sw.extractLsb' 8 8

/-- SW with one bit set or cleared and every other bit unchanged (R34). -/
def setBit (sw : Word) (i : Nat) (b : Bool) : Word :=
  if b then sw ||| (1#16 <<< i) else sw &&& ~~~(1#16 <<< i)

/-- `WriteSW(v)` (R33): in kernel mode every bit but the reserved 7:6; in user mode only S, Z and C, with
no trap (the spec's decision D17: log 22). The mode is the one before the write. -/
def writeSw (sw v : Word) : Word :=
  if flagU sw then (sw &&& 0xFFF8) ||| (v &&& 0x0007) else v &&& 0xFF3F

/-! ## Condition modes (spec/30_encoding.md R84) -/

/-- `CondPass(M, SW)`: the instruction executes. -/
def condPass (m : CondMode) (sw : Word) : Bool :=
  match m with
  | .always => true
  | .nc => !flagC sw
  | .nz => !flagZ sw
  | .ns => !flagS sw
  | .never => false
  | .c => flagC sw
  | .z => flagZ sw
  | .s => flagS sw

/-! ## The adder and the flag updates (spec/42_arithmetic.md R160, spec/00_scope.md R9) -/

/-- `Adder(a, b, cin)` (R160): the 16-bit sum and the carry output, bit 16 of the unbounded sum. -/
def adder (a b : Word) (cin : Bool) : Word × Bool :=
  let t := a.toNat + b.toNat + cin.toNat
  (BitVec.ofNat 16 t, decide (65536 ≤ t))

/-- `SetZS(r)` (spec/00_scope.md R9): Z is whether the result is 0, S its bit 15. -/
def setZS (sw r : Word) : Word :=
  setBit (setBit sw 1 (r == 0)) 2 (r.getLsbD 15)

/-- `SetCZS(r, cout)` (R160): C is the carry output, Z and S as `setZS`. -/
def setCZS (sw r : Word) (cout : Bool) : Word :=
  setZS (setBit sw 0 cout) r

/-! ## The results of the one-bit shifts and rotates (spec/43_shift_logic.md R181 to R184) -/

/-- SHL (R181): the word shifted left, and its bit 15. -/
def shiftLeft1 (v : Word) : Word × Bool := (v <<< 1, v.getLsbD 15)

/-- ROL (R182): shifted left with the old carry in bit 0, and its bit 15. -/
def rotateLeft1 (v : Word) (c : Bool) : Word × Bool :=
  (v <<< 1 ||| (BitVec.ofBool c).setWidth 16, v.getLsbD 15)

/-- SHR (R183): shifted right with zero in bit 15 (the spec's decision D31: log 27), and its bit 0. -/
def shiftRight1 (v : Word) : Word × Bool := (v >>> 1, v.getLsbD 0)

/-- ROR (R184): shifted right with the old carry in bit 15, and its bit 0. -/
def rotateRight1 (v : Word) (c : Bool) : Word × Bool :=
  (v >>> 1 ||| (BitVec.ofBool c).setWidth 16 <<< 15, v.getLsbD 0)

/-! ## SFL (spec/30_encoding.md R88, spec/44_control.md R201) -/

/-- The SW bit a flag index names: `dst[1:0]` (R88). -/
def flagBit : FlagIndex → Nat
  | .clearC | .setC => 0
  | .clearZ | .setZ => 1
  | .clearS | .setS => 2
  | .clearI | .setI => 3

/-- The value a flag index gives its bit: `dst[2]` (R88). -/
def flagValue : FlagIndex → Bool
  | .clearC | .clearZ | .clearS | .clearI => false
  | .setC | .setZ | .setS | .setI => true

/-- SW after `SFL idx` (R201): in user mode the I flag keeps its value, with no trap (the spec's decision
D16: log 22). -/
def applyFlagIndex (sw : Word) (idx : FlagIndex) : Word :=
  if flagBit idx == 3 && flagU sw then sw
  else setBit sw (flagBit idx) (flagValue idx)

end Sys2Proof.Machine
end

