-- ==== Sys2Proof/WellFormed.lean ====
section
/-! DEFINITION. Which register fields each form uses (spec/30_encoding.md R93), and well-formedness:
the canonical words an assembler writes, with 0 in every unused field (R94). The machine itself never
asks whether an instruction is well-formed: it ignores an unused field whatever it holds (R94). -/

namespace Sys2Proof

/-- A cell of the table of spec/30_encoding.md R93: `unused` is its "-", `flagIndex` its "idx", and
`readInUserMode` the cell "R when SW.U = 1, - when SW.U = 0" of TMC. -/
inductive FieldUse where
  | unused | read | written | readWritten | readInUserMode | flagIndex
deriving DecidableEq, Repr

/-- The uses of the dst field and of the src field of a form: the two columns of R93 in one table.
The unused pairs (R95) use no field. -/
def fieldUse : Instr → FieldUse × FieldUse
  | .movRegReg _ _ _ => (.written, .read)
  | .movRegImm _ _ _ _ => (.written, .unused)
  | .movRegInd _ _ _ => (.written, .read)
  | .movRegAbs _ _ _ _ => (.written, .unused)
  | .movIndReg _ _ _ => (.read, .read)
  | .movIndImm _ _ _ _ => (.read, .unused)
  | .movIndInd _ _ _ => (.read, .read)
  | .movIndAbs _ _ _ _ => (.read, .unused)
  | .movRegPostInc _ _ _ => (.written, .readWritten)
  | .movAbsReg _ _ _ _ => (.unused, .read)
  | .movPostIncReg _ _ _ => (.readWritten, .read)
  | .movAbsInd _ _ _ _ => (.unused, .read)
  | .mvl _ _ _ => (.written, .read)
  | .movRegDisp _ _ _ _ => (.written, .read)
  | .mvh _ _ _ => (.written, .read)
  | .movIndDisp _ _ _ _ => (.read, .read)
  | .nul _ _ _ => (.written, .unused)
  | .movDispReg _ _ _ _ => (.read, .read)
  | .mkw _ _ _ => (.readWritten, .read)
  | .movDispInd _ _ _ _ => (.read, .read)
  | .movRegSw _ _ _ => (.written, .unused)
  | .movAbsSw _ _ _ _ => (.unused, .unused)
  | .movSwReg _ _ _ => (.read, .unused)
  | .movSwImm _ _ _ _ => (.unused, .unused)
  | .movPostDecReg _ _ _ => (.readWritten, .read)
  | .movPostDecImm _ _ _ _ => (.readWritten, .unused)
  | .movPostDecSw _ _ _ => (.readWritten, .unused)
  | .outAbsReg _ _ _ _ => (.unused, .read)
  | .movRegPreInc _ _ _ => (.written, .readWritten)
  | .illegal0EImm _ _ _ _ => (.unused, .unused)
  | .movSwPreInc _ _ _ => (.unused, .readWritten)
  | .illegal0FImm _ _ _ _ => (.unused, .unused)
  | .addReg _ _ _ => (.readWritten, .read)
  | .addImm _ _ _ _ => (.readWritten, .unused)
  | .adcReg _ _ _ => (.readWritten, .read)
  | .adcImm _ _ _ _ => (.readWritten, .unused)
  | .assReg _ _ _ => (.readWritten, .read)
  | .assImm _ _ _ _ => (.readWritten, .unused)
  | .subReg _ _ _ => (.readWritten, .read)
  | .illegal13Imm _ _ _ _ => (.unused, .unused)
  | .sbcReg _ _ _ => (.readWritten, .read)
  | .illegal14Imm _ _ _ _ => (.unused, .unused)
  | .incReg _ _ _ => (.written, .read)
  | .illegal15Imm _ _ _ _ => (.unused, .unused)
  | .decReg _ _ _ => (.written, .read)
  | .illegal16Imm _ _ _ _ => (.unused, .unused)
  | .shlReg _ _ _ => (.written, .read)
  | .illegal17Imm _ _ _ _ => (.unused, .unused)
  | .rolReg _ _ _ => (.written, .read)
  | .illegal18Imm _ _ _ _ => (.unused, .unused)
  | .shrReg _ _ _ => (.written, .read)
  | .illegal19Imm _ _ _ _ => (.unused, .unused)
  | .rorReg _ _ _ => (.written, .read)
  | .illegal1AImm _ _ _ _ => (.unused, .unused)
  | .notReg _ _ _ => (.written, .read)
  | .illegal1BImm _ _ _ _ => (.unused, .unused)
  | .negReg _ _ _ => (.written, .read)
  | .illegal1CImm _ _ _ _ => (.unused, .unused)
  | .anlReg _ _ _ => (.readWritten, .read)
  | .anlImm _ _ _ _ => (.readWritten, .unused)
  | .orlReg _ _ _ => (.readWritten, .read)
  | .orlImm _ _ _ _ => (.readWritten, .unused)
  | .xorReg _ _ _ => (.readWritten, .read)
  | .xorImm _ _ _ _ => (.readWritten, .unused)
  | .sfl _ _ _ => (.flagIndex, .unused)
  | .illegal20Imm _ _ _ _ => (.unused, .unused)
  | .sexReg _ _ _ => (.readWritten, .read)
  | .sexImm _ _ _ _ => (.readWritten, .unused)
  | .tmcReg _ _ _ => (.unused, .readInUserMode)
  | .tmcImm _ _ _ _ => (.unused, .unused)
  | .cmpReg _ _ _ => (.read, .read)
  | .cmpImm _ _ _ _ => (.read, .unused)
  | .tstReg _ _ _ => (.read, .read)
  | .tstImm _ _ _ _ => (.read, .unused)
  | .outIndReg _ _ _ => (.read, .read)
  | .outIndImm _ _ _ _ => (.read, .unused)
  | .inRegInd _ _ _ => (.written, .read)
  | .inRegAbs _ _ _ _ => (.written, .unused)
  | .illegal27Word _ _ _ => (.unused, .unused)
  | .illegal27Imm _ _ _ _ => (.unused, .unused)
  | .illegal28Word _ _ _ => (.unused, .unused)
  | .illegal28Imm _ _ _ _ => (.unused, .unused)
  | .illegal29Word _ _ _ => (.unused, .unused)
  | .illegal29Imm _ _ _ _ => (.unused, .unused)
  | .illegal2AWord _ _ _ => (.unused, .unused)
  | .illegal2AImm _ _ _ _ => (.unused, .unused)
  | .illegal2BWord _ _ _ => (.unused, .unused)
  | .illegal2BImm _ _ _ _ => (.unused, .unused)
  | .illegal2CWord _ _ _ => (.unused, .unused)
  | .illegal2CImm _ _ _ _ => (.unused, .unused)
  | .illegal2DWord _ _ _ => (.unused, .unused)
  | .illegal2DImm _ _ _ _ => (.unused, .unused)
  | .illegal2EWord _ _ _ => (.unused, .unused)
  | .illegal2EImm _ _ _ _ => (.unused, .unused)
  | .illegal2FWord _ _ _ => (.unused, .unused)
  | .illegal2FImm _ _ _ _ => (.unused, .unused)
  | .illegal30Word _ _ _ => (.unused, .unused)
  | .illegal30Imm _ _ _ _ => (.unused, .unused)
  | .illegal31Word _ _ _ => (.unused, .unused)
  | .illegal31Imm _ _ _ _ => (.unused, .unused)
  | .illegal32Word _ _ _ => (.unused, .unused)
  | .illegal32Imm _ _ _ _ => (.unused, .unused)
  | .illegal33Word _ _ _ => (.unused, .unused)
  | .illegal33Imm _ _ _ _ => (.unused, .unused)
  | .illegal34Word _ _ _ => (.unused, .unused)
  | .illegal34Imm _ _ _ _ => (.unused, .unused)
  | .illegal35Word _ _ _ => (.unused, .unused)
  | .illegal35Imm _ _ _ _ => (.unused, .unused)
  | .illegal36Word _ _ _ => (.unused, .unused)
  | .illegal36Imm _ _ _ _ => (.unused, .unused)
  | .illegal37Word _ _ _ => (.unused, .unused)
  | .illegal37Imm _ _ _ _ => (.unused, .unused)
  | .illegal38Word _ _ _ => (.unused, .unused)
  | .illegal38Imm _ _ _ _ => (.unused, .unused)
  | .illegal39Word _ _ _ => (.unused, .unused)
  | .illegal39Imm _ _ _ _ => (.unused, .unused)
  | .illegal3AWord _ _ _ => (.unused, .unused)
  | .illegal3AImm _ _ _ _ => (.unused, .unused)
  | .illegal3BWord _ _ _ => (.unused, .unused)
  | .illegal3BImm _ _ _ _ => (.unused, .unused)
  | .illegal3CWord _ _ _ => (.unused, .unused)
  | .illegal3CImm _ _ _ _ => (.unused, .unused)
  | .illegal3DWord _ _ _ => (.unused, .unused)
  | .illegal3DImm _ _ _ _ => (.unused, .unused)
  | .illegal3EWord _ _ _ => (.unused, .unused)
  | .illegal3EImm _ _ _ _ => (.unused, .unused)
  | .illegal3FWord _ _ _ => (.unused, .unused)
  | .illegal3FImm _ _ _ _ => (.unused, .unused)

/-- The raw field dst, bits 5:3, as a register number; the flag index of SFL is no register. -/
def dstField : Instr → Option Reg
  | .movRegReg _ d _ => some d
  | .movRegImm _ d _ _ => some d
  | .movRegInd _ d _ => some d
  | .movRegAbs _ d _ _ => some d
  | .movIndReg _ d _ => some d
  | .movIndImm _ d _ _ => some d
  | .movIndInd _ d _ => some d
  | .movIndAbs _ d _ _ => some d
  | .movRegPostInc _ d _ => some d
  | .movAbsReg _ d _ _ => some d
  | .movPostIncReg _ d _ => some d
  | .movAbsInd _ d _ _ => some d
  | .mvl _ d _ => some d
  | .movRegDisp _ d _ _ => some d
  | .mvh _ d _ => some d
  | .movIndDisp _ d _ _ => some d
  | .nul _ d _ => some d
  | .movDispReg _ d _ _ => some d
  | .mkw _ d _ => some d
  | .movDispInd _ d _ _ => some d
  | .movRegSw _ d _ => some d
  | .movAbsSw _ d _ _ => some d
  | .movSwReg _ d _ => some d
  | .movSwImm _ d _ _ => some d
  | .movPostDecReg _ d _ => some d
  | .movPostDecImm _ d _ _ => some d
  | .movPostDecSw _ d _ => some d
  | .outAbsReg _ d _ _ => some d
  | .movRegPreInc _ d _ => some d
  | .illegal0EImm _ d _ _ => some d
  | .movSwPreInc _ d _ => some d
  | .illegal0FImm _ d _ _ => some d
  | .addReg _ d _ => some d
  | .addImm _ d _ _ => some d
  | .adcReg _ d _ => some d
  | .adcImm _ d _ _ => some d
  | .assReg _ d _ => some d
  | .assImm _ d _ _ => some d
  | .subReg _ d _ => some d
  | .illegal13Imm _ d _ _ => some d
  | .sbcReg _ d _ => some d
  | .illegal14Imm _ d _ _ => some d
  | .incReg _ d _ => some d
  | .illegal15Imm _ d _ _ => some d
  | .decReg _ d _ => some d
  | .illegal16Imm _ d _ _ => some d
  | .shlReg _ d _ => some d
  | .illegal17Imm _ d _ _ => some d
  | .rolReg _ d _ => some d
  | .illegal18Imm _ d _ _ => some d
  | .shrReg _ d _ => some d
  | .illegal19Imm _ d _ _ => some d
  | .rorReg _ d _ => some d
  | .illegal1AImm _ d _ _ => some d
  | .notReg _ d _ => some d
  | .illegal1BImm _ d _ _ => some d
  | .negReg _ d _ => some d
  | .illegal1CImm _ d _ _ => some d
  | .anlReg _ d _ => some d
  | .anlImm _ d _ _ => some d
  | .orlReg _ d _ => some d
  | .orlImm _ d _ _ => some d
  | .xorReg _ d _ => some d
  | .xorImm _ d _ _ => some d
  | .sfl _ _ _ => none
  | .illegal20Imm _ d _ _ => some d
  | .sexReg _ d _ => some d
  | .sexImm _ d _ _ => some d
  | .tmcReg _ d _ => some d
  | .tmcImm _ d _ _ => some d
  | .cmpReg _ d _ => some d
  | .cmpImm _ d _ _ => some d
  | .tstReg _ d _ => some d
  | .tstImm _ d _ _ => some d
  | .outIndReg _ d _ => some d
  | .outIndImm _ d _ _ => some d
  | .inRegInd _ d _ => some d
  | .inRegAbs _ d _ _ => some d
  | .illegal27Word _ d _ => some d
  | .illegal27Imm _ d _ _ => some d
  | .illegal28Word _ d _ => some d
  | .illegal28Imm _ d _ _ => some d
  | .illegal29Word _ d _ => some d
  | .illegal29Imm _ d _ _ => some d
  | .illegal2AWord _ d _ => some d
  | .illegal2AImm _ d _ _ => some d
  | .illegal2BWord _ d _ => some d
  | .illegal2BImm _ d _ _ => some d
  | .illegal2CWord _ d _ => some d
  | .illegal2CImm _ d _ _ => some d
  | .illegal2DWord _ d _ => some d
  | .illegal2DImm _ d _ _ => some d
  | .illegal2EWord _ d _ => some d
  | .illegal2EImm _ d _ _ => some d
  | .illegal2FWord _ d _ => some d
  | .illegal2FImm _ d _ _ => some d
  | .illegal30Word _ d _ => some d
  | .illegal30Imm _ d _ _ => some d
  | .illegal31Word _ d _ => some d
  | .illegal31Imm _ d _ _ => some d
  | .illegal32Word _ d _ => some d
  | .illegal32Imm _ d _ _ => some d
  | .illegal33Word _ d _ => some d
  | .illegal33Imm _ d _ _ => some d
  | .illegal34Word _ d _ => some d
  | .illegal34Imm _ d _ _ => some d
  | .illegal35Word _ d _ => some d
  | .illegal35Imm _ d _ _ => some d
  | .illegal36Word _ d _ => some d
  | .illegal36Imm _ d _ _ => some d
  | .illegal37Word _ d _ => some d
  | .illegal37Imm _ d _ _ => some d
  | .illegal38Word _ d _ => some d
  | .illegal38Imm _ d _ _ => some d
  | .illegal39Word _ d _ => some d
  | .illegal39Imm _ d _ _ => some d
  | .illegal3AWord _ d _ => some d
  | .illegal3AImm _ d _ _ => some d
  | .illegal3BWord _ d _ => some d
  | .illegal3BImm _ d _ _ => some d
  | .illegal3CWord _ d _ => some d
  | .illegal3CImm _ d _ _ => some d
  | .illegal3DWord _ d _ => some d
  | .illegal3DImm _ d _ _ => some d
  | .illegal3EWord _ d _ => some d
  | .illegal3EImm _ d _ _ => some d
  | .illegal3FWord _ d _ => some d
  | .illegal3FImm _ d _ _ => some d

/-- The raw field src, bits 2:0, as a register number. -/
def srcField : Instr → Reg
  | .movRegReg _ _ r => r
  | .movRegImm _ _ r _ => r
  | .movRegInd _ _ r => r
  | .movRegAbs _ _ r _ => r
  | .movIndReg _ _ r => r
  | .movIndImm _ _ r _ => r
  | .movIndInd _ _ r => r
  | .movIndAbs _ _ r _ => r
  | .movRegPostInc _ _ r => r
  | .movAbsReg _ _ r _ => r
  | .movPostIncReg _ _ r => r
  | .movAbsInd _ _ r _ => r
  | .mvl _ _ r => r
  | .movRegDisp _ _ r _ => r
  | .mvh _ _ r => r
  | .movIndDisp _ _ r _ => r
  | .nul _ _ r => r
  | .movDispReg _ _ r _ => r
  | .mkw _ _ r => r
  | .movDispInd _ _ r _ => r
  | .movRegSw _ _ r => r
  | .movAbsSw _ _ r _ => r
  | .movSwReg _ _ r => r
  | .movSwImm _ _ r _ => r
  | .movPostDecReg _ _ r => r
  | .movPostDecImm _ _ r _ => r
  | .movPostDecSw _ _ r => r
  | .outAbsReg _ _ r _ => r
  | .movRegPreInc _ _ r => r
  | .illegal0EImm _ _ r _ => r
  | .movSwPreInc _ _ r => r
  | .illegal0FImm _ _ r _ => r
  | .addReg _ _ r => r
  | .addImm _ _ r _ => r
  | .adcReg _ _ r => r
  | .adcImm _ _ r _ => r
  | .assReg _ _ r => r
  | .assImm _ _ r _ => r
  | .subReg _ _ r => r
  | .illegal13Imm _ _ r _ => r
  | .sbcReg _ _ r => r
  | .illegal14Imm _ _ r _ => r
  | .incReg _ _ r => r
  | .illegal15Imm _ _ r _ => r
  | .decReg _ _ r => r
  | .illegal16Imm _ _ r _ => r
  | .shlReg _ _ r => r
  | .illegal17Imm _ _ r _ => r
  | .rolReg _ _ r => r
  | .illegal18Imm _ _ r _ => r
  | .shrReg _ _ r => r
  | .illegal19Imm _ _ r _ => r
  | .rorReg _ _ r => r
  | .illegal1AImm _ _ r _ => r
  | .notReg _ _ r => r
  | .illegal1BImm _ _ r _ => r
  | .negReg _ _ r => r
  | .illegal1CImm _ _ r _ => r
  | .anlReg _ _ r => r
  | .anlImm _ _ r _ => r
  | .orlReg _ _ r => r
  | .orlImm _ _ r _ => r
  | .xorReg _ _ r => r
  | .xorImm _ _ r _ => r
  | .sfl _ _ r => r
  | .illegal20Imm _ _ r _ => r
  | .sexReg _ _ r => r
  | .sexImm _ _ r _ => r
  | .tmcReg _ _ r => r
  | .tmcImm _ _ r _ => r
  | .cmpReg _ _ r => r
  | .cmpImm _ _ r _ => r
  | .tstReg _ _ r => r
  | .tstImm _ _ r _ => r
  | .outIndReg _ _ r => r
  | .outIndImm _ _ r _ => r
  | .inRegInd _ _ r => r
  | .inRegAbs _ _ r _ => r
  | .illegal27Word _ _ r => r
  | .illegal27Imm _ _ r _ => r
  | .illegal28Word _ _ r => r
  | .illegal28Imm _ _ r _ => r
  | .illegal29Word _ _ r => r
  | .illegal29Imm _ _ r _ => r
  | .illegal2AWord _ _ r => r
  | .illegal2AImm _ _ r _ => r
  | .illegal2BWord _ _ r => r
  | .illegal2BImm _ _ r _ => r
  | .illegal2CWord _ _ r => r
  | .illegal2CImm _ _ r _ => r
  | .illegal2DWord _ _ r => r
  | .illegal2DImm _ _ r _ => r
  | .illegal2EWord _ _ r => r
  | .illegal2EImm _ _ r _ => r
  | .illegal2FWord _ _ r => r
  | .illegal2FImm _ _ r _ => r
  | .illegal30Word _ _ r => r
  | .illegal30Imm _ _ r _ => r
  | .illegal31Word _ _ r => r
  | .illegal31Imm _ _ r _ => r
  | .illegal32Word _ _ r => r
  | .illegal32Imm _ _ r _ => r
  | .illegal33Word _ _ r => r
  | .illegal33Imm _ _ r _ => r
  | .illegal34Word _ _ r => r
  | .illegal34Imm _ _ r _ => r
  | .illegal35Word _ _ r => r
  | .illegal35Imm _ _ r _ => r
  | .illegal36Word _ _ r => r
  | .illegal36Imm _ _ r _ => r
  | .illegal37Word _ _ r => r
  | .illegal37Imm _ _ r _ => r
  | .illegal38Word _ _ r => r
  | .illegal38Imm _ _ r _ => r
  | .illegal39Word _ _ r => r
  | .illegal39Imm _ _ r _ => r
  | .illegal3AWord _ _ r => r
  | .illegal3AImm _ _ r _ => r
  | .illegal3BWord _ _ r => r
  | .illegal3BImm _ _ r _ => r
  | .illegal3CWord _ _ r => r
  | .illegal3CImm _ _ r _ => r
  | .illegal3DWord _ _ r => r
  | .illegal3DImm _ _ r _ => r
  | .illegal3EWord _ _ r => r
  | .illegal3EImm _ _ r _ => r
  | .illegal3FWord _ _ r => r
  | .illegal3FImm _ _ r _ => r

/-- `DstUsed` of spec/60_exceptions.md R302: the table shows R, W or RW for the dst field. -/
def dstUsed (i : Instr) : Bool :=
  (fieldUse i).1 != .unused && (fieldUse i).1 != .flagIndex

/-- `SrcUsed` of spec/60_exceptions.md R302, for an instruction that executes in user mode. -/
def srcUsed (i : Instr) : Bool :=
  (fieldUse i).2 != .unused

/-- The dst field holds what an assembler writes: 0 where the form does not use it. -/
def dstWellFormed (i : Instr) : Bool :=
  (fieldUse i).1 != .unused || dstField i == some .r0

/-- The src field holds what an assembler writes: 0 where the form does not use it. -/
def srcWellFormed (i : Instr) : Bool :=
  (fieldUse i).2 != .unused || srcField i == .r0

/-- Canonical: every unused register field is 0 (spec/30_encoding.md R94). -/
def wellFormed (i : Instr) : Bool :=
  dstWellFormed i && srcWellFormed i

end Sys2Proof
end

