-- ==== Sys2Proof/Decode.lean ====
section
/-! DEFINITION. Encoding and decoding (spec/30_encoding.md R80 to R83, R88, R92). Decoding a pair of
words is total; decoding a list of octets rejects only a stream that ends too early, by name. -/

namespace Sys2Proof

/-! ## The fields -/

/-- The number of a register in a 3-bit field (spec/10_state.md R21). -/
def Reg.bits : Reg → BitVec 3
  | .r0 => 0 | .r1 => 1 | .r2 => 2 | .r3 => 3 | .r4 => 4 | .r5 => 5 | .r6 => 6 | .r7 => 7

/-- The register a 3-bit field selects. -/
def Reg.ofBits (b : BitVec 3) : Reg :=
  match b with
  | 0 => .r0 | 1 => .r1 | 2 => .r2 | 3 => .r3 | 4 => .r4 | 5 => .r5 | 6 => .r6 | 7 => .r7

/-- Bits 8:6 of a condition mode (R84). -/
def CondMode.bits : CondMode → BitVec 3
  | .always => 0 | .nc => 1 | .nz => 2 | .ns => 3 | .never => 4 | .c => 5 | .z => 6 | .s => 7

/-- The condition mode of bits 8:6 (R84). -/
def CondMode.ofBits (b : BitVec 3) : CondMode :=
  match b with
  | 0 => .always | 1 => .nc | 2 => .nz | 3 => .ns | 4 => .never | 5 => .c | 6 => .z | 7 => .s

/-- Bits 5:3 of a flag index (R88). -/
def FlagIndex.bits : FlagIndex → BitVec 3
  | .clearC => 0 | .clearZ => 1 | .clearS => 2 | .clearI => 3
  | .setC => 4 | .setZ => 5 | .setS => 6 | .setI => 7

/-- The flag index of bits 5:3 (R88). -/
def FlagIndex.ofBits (b : BitVec 3) : FlagIndex :=
  match b with
  | 0 => .clearC | 1 => .clearZ | 2 => .clearS | 3 => .clearI
  | 4 => .setC | 5 => .setZ | 6 => .setS | 7 => .setI

/-- `iw = (op << 10) | (I << 9) | (M << 6) | (dst << 3) | src` (R80, R81). -/
def packFields (op : BitVec 6) (hasImm : Bool) (m dst src : BitVec 3) : Word :=
  op.setWidth 16 <<< 10 ||| (BitVec.ofBool hasImm).setWidth 16 <<< 9 ||| m.setWidth 16 <<< 6
    ||| dst.setWidth 16 <<< 3 ||| src.setWidth 16

/-- `op = iw[15:10]` (R81). -/
def opOf (iw : Word) : BitVec 6 := iw.extractLsb' 10 6

/-- `I = iw[9]` (R81, R82). -/
def hasImmOf (iw : Word) : Bool := iw.getLsbD 9

/-- `M = iw[8:6]` (R81). -/
def modeOf (iw : Word) : CondMode := CondMode.ofBits (iw.extractLsb' 6 3)

/-- `dst = iw[5:3]` (R81). -/
def dstOf (iw : Word) : BitVec 3 := iw.extractLsb' 3 3

/-- `src = iw[2:0]` (R81). -/
def srcOf (iw : Word) : BitVec 3 := iw.extractLsb' 0 3

/-- All the fields of an instruction word and the word after it; the latter counts only when I = 1
(R81 to R83). -/
def splitFields (iw next : Word) : Fields where
  op := opOf iw
  hasImm := hasImmOf iw
  mode := modeOf iw
  dst := dstOf iw
  src := srcOf iw
  imm := if hasImmOf iw then next else 0

/-! ## The opcode map (R92) -/

/-- A row of the opcode map: the instruction of one opcode with I = 0 and with I = 1, from its M, dst
and src fields and its immediate. -/
abbrev OpcodeRow :=
  (CondMode → BitVec 3 → BitVec 3 → Instr) × (CondMode → BitVec 3 → BitVec 3 → Word → Instr)

/-- A one-word form with two register fields. -/
abbrev oneWord (f : CondMode → Reg → Reg → Instr) (m : CondMode) (d s : BitVec 3) : Instr :=
  f m (Reg.ofBits d) (Reg.ofBits s)

/-- A two-word form with two register fields. -/
abbrev twoWord (f : CondMode → Reg → Reg → Word → Instr) (m : CondMode) (d s : BitVec 3) (imm : Word) :
    Instr :=
  f m (Reg.ofBits d) (Reg.ofBits s) imm

/-- The one-word form whose dst field is a flag index (R88). -/
abbrev flagForm (f : CondMode → FlagIndex → Reg → Instr) (m : CondMode) (d s : BitVec 3) : Instr :=
  f m (FlagIndex.ofBits d) (Reg.ofBits s)

/-- The opcode map (R92), opcodes 0x00 to 0x0F, in order. -/
def opcodeMap0 : List OpcodeRow :=
  [ (oneWord .movRegReg, twoWord .movRegImm),
    (oneWord .movRegInd, twoWord .movRegAbs),
    (oneWord .movIndReg, twoWord .movIndImm),
    (oneWord .movIndInd, twoWord .movIndAbs),
    (oneWord .movRegPostInc, twoWord .movAbsReg),
    (oneWord .movPostIncReg, twoWord .movAbsInd),
    (oneWord .mvl, twoWord .movRegDisp),
    (oneWord .mvh, twoWord .movIndDisp),
    (oneWord .nul, twoWord .movDispReg),
    (oneWord .mkw, twoWord .movDispInd),
    (oneWord .movRegSw, twoWord .movAbsSw),
    (oneWord .movSwReg, twoWord .movSwImm),
    (oneWord .movPostDecReg, twoWord .movPostDecImm),
    (oneWord .movPostDecSw, twoWord .outAbsReg),
    (oneWord .movRegPreInc, twoWord .illegal0EImm),
    (oneWord .movSwPreInc, twoWord .illegal0FImm)]

/-- The opcode map (R92), opcodes 0x10 to 0x1F, in order. -/
def opcodeMap1 : List OpcodeRow :=
  [ (oneWord .addReg, twoWord .addImm),
    (oneWord .adcReg, twoWord .adcImm),
    (oneWord .assReg, twoWord .assImm),
    (oneWord .subReg, twoWord .illegal13Imm),
    (oneWord .sbcReg, twoWord .illegal14Imm),
    (oneWord .incReg, twoWord .illegal15Imm),
    (oneWord .decReg, twoWord .illegal16Imm),
    (oneWord .shlReg, twoWord .illegal17Imm),
    (oneWord .rolReg, twoWord .illegal18Imm),
    (oneWord .shrReg, twoWord .illegal19Imm),
    (oneWord .rorReg, twoWord .illegal1AImm),
    (oneWord .notReg, twoWord .illegal1BImm),
    (oneWord .negReg, twoWord .illegal1CImm),
    (oneWord .anlReg, twoWord .anlImm),
    (oneWord .orlReg, twoWord .orlImm),
    (oneWord .xorReg, twoWord .xorImm)]

/-- The opcode map (R92), opcodes 0x20 to 0x2F, in order. -/
def opcodeMap2 : List OpcodeRow :=
  [ (flagForm .sfl, twoWord .illegal20Imm),
    (oneWord .sexReg, twoWord .sexImm),
    (oneWord .tmcReg, twoWord .tmcImm),
    (oneWord .cmpReg, twoWord .cmpImm),
    (oneWord .tstReg, twoWord .tstImm),
    (oneWord .outIndReg, twoWord .outIndImm),
    (oneWord .inRegInd, twoWord .inRegAbs),
    (oneWord .illegal27Word, twoWord .illegal27Imm),
    (oneWord .illegal28Word, twoWord .illegal28Imm),
    (oneWord .illegal29Word, twoWord .illegal29Imm),
    (oneWord .illegal2AWord, twoWord .illegal2AImm),
    (oneWord .illegal2BWord, twoWord .illegal2BImm),
    (oneWord .illegal2CWord, twoWord .illegal2CImm),
    (oneWord .illegal2DWord, twoWord .illegal2DImm),
    (oneWord .illegal2EWord, twoWord .illegal2EImm),
    (oneWord .illegal2FWord, twoWord .illegal2FImm)]

/-- The opcode map (R92), opcodes 0x30 to 0x3F, in order. -/
def opcodeMap3 : List OpcodeRow :=
  [ (oneWord .illegal30Word, twoWord .illegal30Imm),
    (oneWord .illegal31Word, twoWord .illegal31Imm),
    (oneWord .illegal32Word, twoWord .illegal32Imm),
    (oneWord .illegal33Word, twoWord .illegal33Imm),
    (oneWord .illegal34Word, twoWord .illegal34Imm),
    (oneWord .illegal35Word, twoWord .illegal35Imm),
    (oneWord .illegal36Word, twoWord .illegal36Imm),
    (oneWord .illegal37Word, twoWord .illegal37Imm),
    (oneWord .illegal38Word, twoWord .illegal38Imm),
    (oneWord .illegal39Word, twoWord .illegal39Imm),
    (oneWord .illegal3AWord, twoWord .illegal3AImm),
    (oneWord .illegal3BWord, twoWord .illegal3BImm),
    (oneWord .illegal3CWord, twoWord .illegal3CImm),
    (oneWord .illegal3DWord, twoWord .illegal3DImm),
    (oneWord .illegal3EWord, twoWord .illegal3EImm),
    (oneWord .illegal3FWord, twoWord .illegal3FImm)]

/-- The opcode map (R92): one row per opcode 0x00 to 0x3F. -/
def opcodeMap : List OpcodeRow :=
  opcodeMap0 ++ opcodeMap1 ++ opcodeMap2 ++ opcodeMap3

/-- The instruction of a set of fields. The map has a row for each of the 64 opcodes, so the default
of `getD` is never reached (`Laws.Encoding`: `opcodeMap_length`). -/
def instrOf (f : Fields) : Instr :=
  let row := opcodeMap.getD f.op.toNat
    (oneWord .illegal3FWord, twoWord .illegal3FImm)
  if f.hasImm then row.2 f.mode f.dst f.src f.imm else row.1 f.mode f.dst f.src

/-- Decode an instruction word and the word after it. Total: every 16-bit pattern is an instruction
(R81). -/
def decodeWords (iw next : Word) : Instr :=
  instrOf (splitFields iw next)

/-! ## The encoder -/

/-- The fields of an instruction, from the same map (R81, R92). -/
def fieldsOf : Instr → Fields
  | .movRegReg m d r => ⟨0x00, false, m, d.bits, r.bits, 0⟩
  | .movRegImm m d r i => ⟨0x00, true, m, d.bits, r.bits, i⟩
  | .movRegInd m d r => ⟨0x01, false, m, d.bits, r.bits, 0⟩
  | .movRegAbs m d r i => ⟨0x01, true, m, d.bits, r.bits, i⟩
  | .movIndReg m d r => ⟨0x02, false, m, d.bits, r.bits, 0⟩
  | .movIndImm m d r i => ⟨0x02, true, m, d.bits, r.bits, i⟩
  | .movIndInd m d r => ⟨0x03, false, m, d.bits, r.bits, 0⟩
  | .movIndAbs m d r i => ⟨0x03, true, m, d.bits, r.bits, i⟩
  | .movRegPostInc m d r => ⟨0x04, false, m, d.bits, r.bits, 0⟩
  | .movAbsReg m d r i => ⟨0x04, true, m, d.bits, r.bits, i⟩
  | .movPostIncReg m d r => ⟨0x05, false, m, d.bits, r.bits, 0⟩
  | .movAbsInd m d r i => ⟨0x05, true, m, d.bits, r.bits, i⟩
  | .mvl m d r => ⟨0x06, false, m, d.bits, r.bits, 0⟩
  | .movRegDisp m d r i => ⟨0x06, true, m, d.bits, r.bits, i⟩
  | .mvh m d r => ⟨0x07, false, m, d.bits, r.bits, 0⟩
  | .movIndDisp m d r i => ⟨0x07, true, m, d.bits, r.bits, i⟩
  | .nul m d r => ⟨0x08, false, m, d.bits, r.bits, 0⟩
  | .movDispReg m d r i => ⟨0x08, true, m, d.bits, r.bits, i⟩
  | .mkw m d r => ⟨0x09, false, m, d.bits, r.bits, 0⟩
  | .movDispInd m d r i => ⟨0x09, true, m, d.bits, r.bits, i⟩
  | .movRegSw m d r => ⟨0x0A, false, m, d.bits, r.bits, 0⟩
  | .movAbsSw m d r i => ⟨0x0A, true, m, d.bits, r.bits, i⟩
  | .movSwReg m d r => ⟨0x0B, false, m, d.bits, r.bits, 0⟩
  | .movSwImm m d r i => ⟨0x0B, true, m, d.bits, r.bits, i⟩
  | .movPostDecReg m d r => ⟨0x0C, false, m, d.bits, r.bits, 0⟩
  | .movPostDecImm m d r i => ⟨0x0C, true, m, d.bits, r.bits, i⟩
  | .movPostDecSw m d r => ⟨0x0D, false, m, d.bits, r.bits, 0⟩
  | .outAbsReg m d r i => ⟨0x0D, true, m, d.bits, r.bits, i⟩
  | .movRegPreInc m d r => ⟨0x0E, false, m, d.bits, r.bits, 0⟩
  | .illegal0EImm m d r i => ⟨0x0E, true, m, d.bits, r.bits, i⟩
  | .movSwPreInc m d r => ⟨0x0F, false, m, d.bits, r.bits, 0⟩
  | .illegal0FImm m d r i => ⟨0x0F, true, m, d.bits, r.bits, i⟩
  | .addReg m d r => ⟨0x10, false, m, d.bits, r.bits, 0⟩
  | .addImm m d r i => ⟨0x10, true, m, d.bits, r.bits, i⟩
  | .adcReg m d r => ⟨0x11, false, m, d.bits, r.bits, 0⟩
  | .adcImm m d r i => ⟨0x11, true, m, d.bits, r.bits, i⟩
  | .assReg m d r => ⟨0x12, false, m, d.bits, r.bits, 0⟩
  | .assImm m d r i => ⟨0x12, true, m, d.bits, r.bits, i⟩
  | .subReg m d r => ⟨0x13, false, m, d.bits, r.bits, 0⟩
  | .illegal13Imm m d r i => ⟨0x13, true, m, d.bits, r.bits, i⟩
  | .sbcReg m d r => ⟨0x14, false, m, d.bits, r.bits, 0⟩
  | .illegal14Imm m d r i => ⟨0x14, true, m, d.bits, r.bits, i⟩
  | .incReg m d r => ⟨0x15, false, m, d.bits, r.bits, 0⟩
  | .illegal15Imm m d r i => ⟨0x15, true, m, d.bits, r.bits, i⟩
  | .decReg m d r => ⟨0x16, false, m, d.bits, r.bits, 0⟩
  | .illegal16Imm m d r i => ⟨0x16, true, m, d.bits, r.bits, i⟩
  | .shlReg m d r => ⟨0x17, false, m, d.bits, r.bits, 0⟩
  | .illegal17Imm m d r i => ⟨0x17, true, m, d.bits, r.bits, i⟩
  | .rolReg m d r => ⟨0x18, false, m, d.bits, r.bits, 0⟩
  | .illegal18Imm m d r i => ⟨0x18, true, m, d.bits, r.bits, i⟩
  | .shrReg m d r => ⟨0x19, false, m, d.bits, r.bits, 0⟩
  | .illegal19Imm m d r i => ⟨0x19, true, m, d.bits, r.bits, i⟩
  | .rorReg m d r => ⟨0x1A, false, m, d.bits, r.bits, 0⟩
  | .illegal1AImm m d r i => ⟨0x1A, true, m, d.bits, r.bits, i⟩
  | .notReg m d r => ⟨0x1B, false, m, d.bits, r.bits, 0⟩
  | .illegal1BImm m d r i => ⟨0x1B, true, m, d.bits, r.bits, i⟩
  | .negReg m d r => ⟨0x1C, false, m, d.bits, r.bits, 0⟩
  | .illegal1CImm m d r i => ⟨0x1C, true, m, d.bits, r.bits, i⟩
  | .anlReg m d r => ⟨0x1D, false, m, d.bits, r.bits, 0⟩
  | .anlImm m d r i => ⟨0x1D, true, m, d.bits, r.bits, i⟩
  | .orlReg m d r => ⟨0x1E, false, m, d.bits, r.bits, 0⟩
  | .orlImm m d r i => ⟨0x1E, true, m, d.bits, r.bits, i⟩
  | .xorReg m d r => ⟨0x1F, false, m, d.bits, r.bits, 0⟩
  | .xorImm m d r i => ⟨0x1F, true, m, d.bits, r.bits, i⟩
  | .sfl m d r => ⟨0x20, false, m, d.bits, r.bits, 0⟩
  | .illegal20Imm m d r i => ⟨0x20, true, m, d.bits, r.bits, i⟩
  | .sexReg m d r => ⟨0x21, false, m, d.bits, r.bits, 0⟩
  | .sexImm m d r i => ⟨0x21, true, m, d.bits, r.bits, i⟩
  | .tmcReg m d r => ⟨0x22, false, m, d.bits, r.bits, 0⟩
  | .tmcImm m d r i => ⟨0x22, true, m, d.bits, r.bits, i⟩
  | .cmpReg m d r => ⟨0x23, false, m, d.bits, r.bits, 0⟩
  | .cmpImm m d r i => ⟨0x23, true, m, d.bits, r.bits, i⟩
  | .tstReg m d r => ⟨0x24, false, m, d.bits, r.bits, 0⟩
  | .tstImm m d r i => ⟨0x24, true, m, d.bits, r.bits, i⟩
  | .outIndReg m d r => ⟨0x25, false, m, d.bits, r.bits, 0⟩
  | .outIndImm m d r i => ⟨0x25, true, m, d.bits, r.bits, i⟩
  | .inRegInd m d r => ⟨0x26, false, m, d.bits, r.bits, 0⟩
  | .inRegAbs m d r i => ⟨0x26, true, m, d.bits, r.bits, i⟩
  | .illegal27Word m d r => ⟨0x27, false, m, d.bits, r.bits, 0⟩
  | .illegal27Imm m d r i => ⟨0x27, true, m, d.bits, r.bits, i⟩
  | .illegal28Word m d r => ⟨0x28, false, m, d.bits, r.bits, 0⟩
  | .illegal28Imm m d r i => ⟨0x28, true, m, d.bits, r.bits, i⟩
  | .illegal29Word m d r => ⟨0x29, false, m, d.bits, r.bits, 0⟩
  | .illegal29Imm m d r i => ⟨0x29, true, m, d.bits, r.bits, i⟩
  | .illegal2AWord m d r => ⟨0x2A, false, m, d.bits, r.bits, 0⟩
  | .illegal2AImm m d r i => ⟨0x2A, true, m, d.bits, r.bits, i⟩
  | .illegal2BWord m d r => ⟨0x2B, false, m, d.bits, r.bits, 0⟩
  | .illegal2BImm m d r i => ⟨0x2B, true, m, d.bits, r.bits, i⟩
  | .illegal2CWord m d r => ⟨0x2C, false, m, d.bits, r.bits, 0⟩
  | .illegal2CImm m d r i => ⟨0x2C, true, m, d.bits, r.bits, i⟩
  | .illegal2DWord m d r => ⟨0x2D, false, m, d.bits, r.bits, 0⟩
  | .illegal2DImm m d r i => ⟨0x2D, true, m, d.bits, r.bits, i⟩
  | .illegal2EWord m d r => ⟨0x2E, false, m, d.bits, r.bits, 0⟩
  | .illegal2EImm m d r i => ⟨0x2E, true, m, d.bits, r.bits, i⟩
  | .illegal2FWord m d r => ⟨0x2F, false, m, d.bits, r.bits, 0⟩
  | .illegal2FImm m d r i => ⟨0x2F, true, m, d.bits, r.bits, i⟩
  | .illegal30Word m d r => ⟨0x30, false, m, d.bits, r.bits, 0⟩
  | .illegal30Imm m d r i => ⟨0x30, true, m, d.bits, r.bits, i⟩
  | .illegal31Word m d r => ⟨0x31, false, m, d.bits, r.bits, 0⟩
  | .illegal31Imm m d r i => ⟨0x31, true, m, d.bits, r.bits, i⟩
  | .illegal32Word m d r => ⟨0x32, false, m, d.bits, r.bits, 0⟩
  | .illegal32Imm m d r i => ⟨0x32, true, m, d.bits, r.bits, i⟩
  | .illegal33Word m d r => ⟨0x33, false, m, d.bits, r.bits, 0⟩
  | .illegal33Imm m d r i => ⟨0x33, true, m, d.bits, r.bits, i⟩
  | .illegal34Word m d r => ⟨0x34, false, m, d.bits, r.bits, 0⟩
  | .illegal34Imm m d r i => ⟨0x34, true, m, d.bits, r.bits, i⟩
  | .illegal35Word m d r => ⟨0x35, false, m, d.bits, r.bits, 0⟩
  | .illegal35Imm m d r i => ⟨0x35, true, m, d.bits, r.bits, i⟩
  | .illegal36Word m d r => ⟨0x36, false, m, d.bits, r.bits, 0⟩
  | .illegal36Imm m d r i => ⟨0x36, true, m, d.bits, r.bits, i⟩
  | .illegal37Word m d r => ⟨0x37, false, m, d.bits, r.bits, 0⟩
  | .illegal37Imm m d r i => ⟨0x37, true, m, d.bits, r.bits, i⟩
  | .illegal38Word m d r => ⟨0x38, false, m, d.bits, r.bits, 0⟩
  | .illegal38Imm m d r i => ⟨0x38, true, m, d.bits, r.bits, i⟩
  | .illegal39Word m d r => ⟨0x39, false, m, d.bits, r.bits, 0⟩
  | .illegal39Imm m d r i => ⟨0x39, true, m, d.bits, r.bits, i⟩
  | .illegal3AWord m d r => ⟨0x3A, false, m, d.bits, r.bits, 0⟩
  | .illegal3AImm m d r i => ⟨0x3A, true, m, d.bits, r.bits, i⟩
  | .illegal3BWord m d r => ⟨0x3B, false, m, d.bits, r.bits, 0⟩
  | .illegal3BImm m d r i => ⟨0x3B, true, m, d.bits, r.bits, i⟩
  | .illegal3CWord m d r => ⟨0x3C, false, m, d.bits, r.bits, 0⟩
  | .illegal3CImm m d r i => ⟨0x3C, true, m, d.bits, r.bits, i⟩
  | .illegal3DWord m d r => ⟨0x3D, false, m, d.bits, r.bits, 0⟩
  | .illegal3DImm m d r i => ⟨0x3D, true, m, d.bits, r.bits, i⟩
  | .illegal3EWord m d r => ⟨0x3E, false, m, d.bits, r.bits, 0⟩
  | .illegal3EImm m d r i => ⟨0x3E, true, m, d.bits, r.bits, i⟩
  | .illegal3FWord m d r => ⟨0x3F, false, m, d.bits, r.bits, 0⟩
  | .illegal3FImm m d r i => ⟨0x3F, true, m, d.bits, r.bits, i⟩

/-- The condition mode every instruction carries (R84). -/
def Instr.mode (i : Instr) : CondMode := (fieldsOf i).mode

/-- How many words the instruction has: 1 + I (R82). -/
def Instr.length (i : Instr) : Nat := if (fieldsOf i).hasImm then 2 else 1

/-- The instruction word (R81). -/
def encodeWord (i : Instr) : Word :=
  let f := fieldsOf i
  packFields f.op f.hasImm f.mode.bits f.dst f.src

/-- The immediate word; zero for an instruction that has none (R82, R83). -/
def immOf (i : Instr) : Word := (fieldsOf i).imm

/-- The words of an instruction in address order (R82). -/
def encode (i : Instr) : List Word :=
  if (fieldsOf i).hasImm then [encodeWord i, immOf i] else [encodeWord i]

/-! ## Octets

The machine has no octet order (spec/20_memory.md R54). The model lists memory by octets, a word's bits
7:0 first (log 1), and these helpers hold that convention. -/

/-- Bits 7:0 of a word (spec/20_memory.md R54). -/
def lowByte (w : Word) : Byte := w.extractLsb' 0 8

/-- Bits 15:8 of a word (spec/20_memory.md R54). -/
def highByte (w : Word) : Byte := w.extractLsb' 8 8

/-- The word of a high and a low byte. -/
def wordOfBytes (hi lo : Byte) : Word := hi.setWidth 16 <<< 8 ||| lo.setWidth 16

/-- The octets of a word as the model lays them out (log 1). -/
def bytesOfWord (w : Word) : List Byte := [lowByte w, highByte w]

/-- The octets of an instruction. -/
def encodeBytes (i : Instr) : List Byte := (encode i).flatMap bytesOfWord

/-- Why a stream of octets is no instruction: it ends too early. Nothing else is rejected, since every
16-bit pattern decodes (R81). Safe: the machine fetches from a memory that never ends. -/
inductive DecodeError where
  /-- Fewer than two octets: no instruction word. -/
  | noInstructionWord
  /-- I = 1, and fewer than two octets follow the instruction word. -/
  | noImmediateWord
deriving DecidableEq, Repr

/-- Decode a stream of octets: the instruction and what follows it, or why there is none (R82). -/
def decode : List Byte → Except DecodeError (Instr × List Byte)
  | lo :: hi :: rest =>
    let iw := wordOfBytes hi lo
    if hasImmOf iw then
      match rest with
      | lo2 :: hi2 :: rest2 => .ok (decodeWords iw (wordOfBytes hi2 lo2), rest2)
      | _ => .error .noImmediateWord
    else .ok (decodeWords iw 0, rest)
  | _ => .error .noInstructionWord

/-- The two words of an instruction whose bits are `w`, bit 0 the least significant bit of the first
word, taking the lowest `nbits` bits and zeros above them. -/
def tableWords (nbits w : Nat) : Word × Word :=
  (BitVec.ofNat 16 (w % 2 ^ nbits), BitVec.ofNat 16 (w % 2 ^ nbits / 65536))

/-- The instruction the decoder reads from an instruction whose bits are `w`, numbered as
spec/opcode_table.json numbers them. -/
def decodeTableWord (nbits w : Nat) : Option Instr :=
  let ws := tableWords nbits w
  match decode (bytesOfWord ws.1 ++ bytesOfWord ws.2) with
  | .ok (i, _) => some i
  | .error _ => none

end Sys2Proof
end

