-- ==== Sys2Proof/Machine/State.lean ====
section
/-! DEFINITION. The machine's state as plain data (spec/10_state.md R20), the reasons a step can stop,
and the state after reset (spec/10_state.md R37, spec/70_reset_and_hazards.md R351). -/

namespace Sys2Proof.Machine

/-- The eight general registers (spec/10_state.md R21): `r6` is the kernel stack pointer (R23), `r7` the
program counter (R24). -/
structure RegFile where
  r0 : Word
  r1 : Word
  r2 : Word
  r3 : Word
  r4 : Word
  r5 : Word
  r6 : Word
  r7 : Word
deriving DecidableEq, Repr

/-- Memory (spec/20_memory.md R50): 65536 words, listed by octets. Word `a` is the octets `2a` (bits
7:0) and `2a + 1` (bits 15:8), a convention of the model that no instruction can observe (R54, log 1).
An octet that is not listed reads as zero (log 2). Canonical form: `Memory.wf`. -/
structure Memory where
  cells : List Host.Cell
deriving DecidableEq, Repr

/-- One access to the I/O bus, as the environment sees it (spec/46_io.md R225, R226). -/
inductive IoEvent where
  /-- `IoWrite(addr, value)`. -/
  | write (addr value : Word)
  /-- `IoRead(addr)`, which the environment answered with `value`. -/
  | read (addr value : Word)
deriving DecidableEq, Repr

/-- The state of the machine: what spec/10_state.md R20 lists (registers, SW, memory), and, as plain
data, what the environment supplies and observes (spec/70_reset_and_hazards.md R359). -/
structure State where
  /-- R0..R7. -/
  regs : RegFile
  /-- The status word SW (spec/10_state.md R28). -/
  sw : Word
  /-- The one memory space for instructions and data (spec/10_state.md R35). -/
  mem : Memory
  /-- The I/O bus accesses performed so far, in program order (log 9). -/
  ioTrace : List IoEvent
  /-- The interrupt levels the environment drives at the coming sampling points at which SW.I = 1, next
  first; bit k is signal k. Past its end the levels are free values (log 6). -/
  irqScript : List (BitVec 8)
  /-- The environment's answers to the coming I/O reads, next first. Past its end the answers are free
  values (log 8). -/
  ioScript : List Word
  /-- How many free values of `Config` have been drawn: the index of the next one (log 10). -/
  draws : Nat
deriving DecidableEq, Repr

/-- Why the machine stops with a fault. It has no constructor: the hardware has no halt and never stops
(spec/60_exceptions.md R324, spec/70_reset_and_hazards.md R358); traps are state changes. Safe. -/
inductive Fault
deriving DecidableEq, Repr

/-- Why the model declines to run an instruction. -/
inductive Refusal where
  /-- The instruction named has no meaning in the model. Raised by no arm of `exec`: every row of the
  opcode table is modelled. Safe: the model would stop where the hardware goes on. -/
  | notModelled (mnemonic : String)
deriving DecidableEq, Repr

/-- R0..R6 are unspecified after reset and zero here (DESIGN CHOICE, unsafe: log 3); R7 = 0x0000
(spec/10_state.md R37, the spec's decision D23: log 4). -/
def RegFile.reset : RegFile where
  r0 := 0
  r1 := 0
  r2 := 0
  r3 := 0
  r4 := 0
  r5 := 0
  r6 := 0
  r7 := 0x0000

/-- The machine right after reset (spec/10_state.md R37, spec/70_reset_and_hazards.md R351): R7 and SW as
the spec decides them (log 4), memory with nothing listed (log 2), and an environment that has supplied
nothing yet (log 6, 8, 9, 10). -/
def State.reset : State where
  regs := RegFile.reset
  sw := 0x0000
  mem := ⟨[]⟩
  ioTrace := []
  irqScript := []
  ioScript := []
  draws := 0

end Sys2Proof.Machine
end

