-- ==== Sys2Proof/Machine/Memory.lean ====
section
/-! DEFINITION. Reading and writing memory (spec/20_memory.md R50, R52, R55), over the list of octets in
canonical form. -/

namespace Sys2Proof.Machine

/-- What an octet that is not listed reads as: the content of a word that neither a store nor the loaded
image has written. The spec leaves it open (spec/10_state.md R37); DESIGN CHOICE, unsafe (log 2). -/
def unlistedByte : Byte := 0

/-- The octet listed at `n`, or what an unlisted one reads as. -/
def lookupByte (n : Nat) : List Host.Cell → Byte
  | [] => unlistedByte
  | (k, b) :: rest => if k = n then b else lookupByte n rest

/-- Insert a cell before the first one with a greater address. -/
def insertCell (n : Nat) (b : Byte) : List Host.Cell → List Host.Cell
  | [] => [(n, b)]
  | (k, c) :: rest => if n < k then (n, b) :: (k, c) :: rest else (k, c) :: insertCell n b rest

/-- The list without the cells at `n`. -/
def dropCell (n : Nat) (cs : List Host.Cell) : List Host.Cell :=
  cs.filter fun c => c.1 != n

/-- Read one octet. -/
def Memory.byteAt (m : Memory) (n : Nat) : Byte :=
  lookupByte n m.cells

/-- Write one octet, keeping the canonical form: the value an unlisted octet reads as is not listed. -/
def Memory.setByte (m : Memory) (n : Nat) (b : Byte) : Memory where
  cells := if b = unlistedByte then dropCell n m.cells else insertCell n b (dropCell n m.cells)

/-- `MemRead(a, 1)` (spec/00_scope.md R9, spec/20_memory.md R52): never faults (log 13). -/
def Memory.readWord (m : Memory) (a : Word) : Word :=
  wordOfBytes (m.byteAt (2 * a.toNat + 1)) (m.byteAt (2 * a.toNat))

/-- `MemWrite(a, 1, v)` (spec/00_scope.md R9, spec/20_memory.md R52): never faults (log 13). -/
def Memory.writeWord (m : Memory) (a v : Word) : Memory :=
  (m.setByte (2 * a.toNat) (lowByte v)).setByte (2 * a.toNat + 1) (highByte v)

/-- The canonical form: addresses strictly rising, all inside the 131072 octets of memory (spec/20_memory.md
R50), and no entry equal to what an unlisted octet reads as. Equal memories are equal data. -/
def Memory.wf (m : Memory) : Bool :=
  decide (m.cells.Pairwise fun c d => c.1 < d.1)
    && m.cells.all fun c => c.2 != unlistedByte && decide (c.1 < 131072)

end Sys2Proof.Machine
end

