-- ==== Sys2Proof/Machine/Ops.lean ====
section
/-! DEFINITION. The named operations over registers, memory and the I/O bus, and the shared sequences:
push and pop, trap and interrupt entry, the return from them, and the checks made before an instruction
executes (spec/30_encoding.md R86, spec/60_exceptions.md). -/

namespace Sys2Proof.Machine

/-- What an instruction, or a step, answers. -/
abbrev Result := Host.Outcome State Fault Refusal

/-! ## Registers (spec/00_scope.md R9: `x[i]` and `x[i] <- v`) -/

/-- The content of a register. -/
def RegFile.get (f : RegFile) : Reg → Word
  | .r0 => f.r0 | .r1 => f.r1 | .r2 => f.r2 | .r3 => f.r3
  | .r4 => f.r4 | .r5 => f.r5 | .r6 => f.r6 | .r7 => f.r7

/-- The register file with one register written. No register is hard-wired (spec/10_state.md R21). -/
def RegFile.set (f : RegFile) (r : Reg) (v : Word) : RegFile :=
  match r with
  | .r0 => { f with r0 := v } | .r1 => { f with r1 := v }
  | .r2 => { f with r2 := v } | .r3 => { f with r3 := v }
  | .r4 => { f with r4 := v } | .r5 => { f with r5 := v }
  | .r6 => { f with r6 := v } | .r7 => { f with r7 := v }

/-- `x[r]`. `x[7]` is the program counter (spec/10_state.md R24). -/
def State.reg (s : State) (r : Reg) : Word := s.regs.get r

/-- `x[r] <- v`; writing `x[7]` is a jump (spec/10_state.md R24). -/
def State.setReg (s : State) (r : Reg) (v : Word) : State := { s with regs := s.regs.set r v }

/-- The program counter, R7. -/
def State.pc (s : State) : Word := s.reg .r7

/-- `pc <- v`: the same as `x[7] <- v` (spec/00_scope.md R9). -/
def State.setPc (s : State) (v : Word) : State := s.setReg .r7 v

/-- The state with another status word. -/
def State.setSw (s : State) (v : Word) : State := { s with sw := v }

/-- User mode: SW.U = 1 (spec/10_state.md R31). -/
def State.user (s : State) : Bool := flagU s.sw

/-! ## Memory -/

/-- `MemRead(a, 1)`. -/
def State.load (s : State) (a : Word) : Word := s.mem.readWord a

/-- `MemWrite(a, 1, v)`. -/
def State.store (s : State) (a v : Word) : State := { s with mem := s.mem.writeWord a v }

/-- The platform's loader (`MEM_INIT`, spec/70_reset_and_hazards.md R351, R359): consecutive words stored from
an address on. It is no step of the machine (log 5). -/
def State.loadImage (s : State) (a : Word) : List Word → State
  | [] => s
  | w :: ws => (s.store a w).loadImage (a + 1) ws

/-- Push (spec/00_scope.md R12, spec/20_memory.md R59): store at `x[r]`, then decrement `x[r]`. -/
def State.push (s : State) (r : Reg) (v : Word) : State :=
  (s.store (s.reg r) v).setReg r (s.reg r - 1)

/-- Pop (spec/00_scope.md R12, spec/20_memory.md R59): increment `x[r]`, then load from it. -/
def State.pop (s : State) (r : Reg) : Word × State :=
  let a := s.reg r + 1
  (s.load a, s.setReg r a)

/-! ## The I/O bus (spec/46_io.md R225) -/

/-- `IoWrite(a, v)`: hand the pair to the environment. -/
def State.ioWrite (s : State) (a v : Word) : State :=
  { s with ioTrace := s.ioTrace ++ [.write a v] }

/-- `IoRead(a)`: a value chosen by the environment, which is the script's next answer while the script
lasts and a free value after it (log 8). -/
def State.ioRead (s : State) (a : Word) : Word × State :=
  match s.ioScript with
  | v :: rest => (v, { s with ioScript := rest, ioTrace := s.ioTrace ++ [.read a v] })
  | [] =>
    let v := Config.ioAnswer s.draws a
    (v, { s with draws := s.draws + 1, ioTrace := s.ioTrace ++ [.read a v] })

/-! ## Trap and interrupt entry, and the return -/

/-- `Enter(vector, number, clearI)` (spec/60_exceptions.md R306): push R7, SW as it is before entry, and
the number through R6; jump to the vector; clear U, and I if asked. -/
def State.enter (s : State) (vector number : Word) (clearI : Bool) : State :=
  let pushed := ((s.push .r6 s.pc).push .r6 s.sw).push .r6 number
  let sw := setBit s.sw 4 false
  (pushed.setPc vector).setSw (if clearI then setBit sw 3 false else sw)

/-- `raise Trap(n)` (spec/60_exceptions.md R304): R7 has been advanced past the instruction, which has no
other effect. -/
def State.raiseTrap (s : State) (n : Word) : State := s.enter 0x0004 n false

/-- Entry of interrupt k (spec/60_exceptions.md R305). -/
def State.enterInterrupt (s : State) (k : Fin 8) : State :=
  s.enter 0x0002 (BitVec.ofNat 16 k.val) true

/-- `TmcUser(n)` (spec/44_control.md R207): the system call, trap entry with the program's number. -/
def State.systemCall (s : State) (n : Word) : State := s.enter 0x0004 n false

/-- `TmcKernel()` (spec/44_control.md R208): pop SW, then R7, through R6. -/
def State.returnFromTrap (s : State) : State :=
  let (sw, s1) := s.pop .r6
  let s2 := s1.setSw (writeSw s1.sw sw)
  let (pc, s3) := s2.pop .r6
  s3.setPc pc

/-! ## The checks of a step before an instruction executes (spec/30_encoding.md R86, steps 3 to 5) -/

/-- Some register field the form uses selects R6 (spec/60_exceptions.md R302). -/
def namesR6 (used : List Reg) : Bool := used.contains .r6

/-- Steps 3, 5 and 6 of a defined form: a skipped instruction changes nothing (spec/30_encoding.md R85); in
user mode a privileged one raises Trap(1) and has no other effect (spec/60_exceptions.md R302); otherwise
the form's effect. R7 has been advanced already. -/
def guarded (m : CondMode) (privileged : Bool) (s effect : State) : Result :=
  if condPass m s.sw then
    if s.user && privileged then .next (s.raiseTrap 1) else .next effect
  else .next s

/-- Steps 3 and 4 of an unused pair: Trap(0) when the condition passes (spec/30_encoding.md R95; the
spec's decision D9: log 16). -/
def illegal (m : CondMode) (s : State) : Result :=
  if condPass m s.sw then .next (s.raiseTrap 0) else .next s

/-- Write a result and the flags C, Z, S of it (`x[dst] <- r; SetCZS(r, c)`). -/
def State.setRegCZS (s : State) (dst : Reg) (rc : Word × Bool) : State :=
  (s.setReg dst rc.1).setSw (setCZS s.sw rc.1 rc.2)

/-- Write a result and the flags Z, S of it (`x[dst] <- r; SetZS(r)`). -/
def State.setRegZS (s : State) (dst : Reg) (r : Word) : State :=
  (s.setReg dst r).setSw (setZS s.sw r)

end Sys2Proof.Machine
end

