-- ==== Sys2Proof/Machine/Operands.lean ====
section
/-! DEFINITION. The operand forms of spec/20_memory.md R58: the address each computes and, for the
auto-modified ones, the load or store together with the register's update, in the order of R60 (log 20). -/

namespace Sys2Proof.Machine

/-- `[reg]` and `{reg}`: the address is the register's value. -/
def State.regAddr (s : State) (r : Reg) : Word := s.reg r

/-- `[reg+imm]`: the sum modulo 65536 (spec/20_memory.md R51). -/
def State.dispAddr (s : State) (r : Reg) (imm : Word) : Word := s.reg r + imm

/-- A load through `[reg]`. -/
def State.loadInd (s : State) (r : Reg) : Word := s.load (s.regAddr r)

/-- A load through `[reg+imm]`. -/
def State.loadDisp (s : State) (r : Reg) (imm : Word) : Word := s.load (s.dispAddr r imm)

/-- A load through `[reg++]`: the word at the register's value, then the increment. -/
def State.loadPostInc (s : State) (r : Reg) : Word × State :=
  let a := s.reg r
  (s.load a, s.setReg r (a + 1))

/-- A store through `[reg++]`: at the register's value, then the increment. -/
def State.storePostInc (s : State) (r : Reg) (v : Word) : State :=
  let a := s.reg r
  (s.store a v).setReg r (a + 1)

/-- A store through `[reg--]`: at the register's value, then the decrement, which is a push. -/
def State.storePostDec (s : State) (r : Reg) (v : Word) : State := s.push r v

/-- A load through `[++reg]`: the increment, then the word at the new value, which is a pop. -/
def State.loadPreInc (s : State) (r : Reg) : Word × State := s.pop r

end Sys2Proof.Machine
end

