-- ==== Sys2Proof/Machine/Arithmetic.lean ====
section
/-! DEFINITION. Integer arithmetic, opcodes 0x10 to 0x16 (spec/42_arithmetic.md). Every form but ASS goes
through the one adder of R160 and sets C, Z and S from it. -/

namespace Sys2Proof.Machine

/-- `ADD dst, src` (R162). -/
def execAddReg (m : CondMode) (dst src : Reg) (s : State) : Result :=
  guarded m (namesR6 [dst, src]) s (s.setRegCZS dst (adder (s.reg dst) (s.reg src) false))

/-- `ADD dst, imm` (R163). -/
def execAddImm (m : CondMode) (dst _src : Reg) (imm : Word) (s : State) : Result :=
  guarded m (namesR6 [dst]) s (s.setRegCZS dst (adder (s.reg dst) imm false))

/-- `ADC dst, src` (R164). -/
def execAdcReg (m : CondMode) (dst src : Reg) (s : State) : Result :=
  guarded m (namesR6 [dst, src]) s (s.setRegCZS dst (adder (s.reg dst) (s.reg src) (flagC s.sw)))

/-- `ADC dst, imm` (R165). -/
def execAdcImm (m : CondMode) (dst _src : Reg) (imm : Word) (s : State) : Result :=
  guarded m (namesR6 [dst]) s (s.setRegCZS dst (adder (s.reg dst) imm (flagC s.sw)))

/-- `ASS dst, src` (R166): "status bits are left unchanged". -/
def execAssReg (m : CondMode) (dst src : Reg) (s : State) : Result :=
  guarded m (namesR6 [dst, src]) s (s.setReg dst (s.reg dst + s.reg src))

/-- `ASS dst, imm` (R167). -/
def execAssImm (m : CondMode) (dst _src : Reg) (imm : Word) (s : State) : Result :=
  guarded m (namesR6 [dst]) s (s.setReg dst (s.reg dst + imm))

/-- `SUB dst, src` (R168): the carry-in reading of the adder (the spec's decision D15: log 21). -/
def execSubReg (m : CondMode) (dst src : Reg) (s : State) : Result :=
  guarded m (namesR6 [dst, src]) s (s.setRegCZS dst (adder (s.reg dst) (~~~ s.reg src) true))

/-- `SBC dst, src` (R169). -/
def execSbcReg (m : CondMode) (dst src : Reg) (s : State) : Result :=
  guarded m (namesR6 [dst, src]) s
    (s.setRegCZS dst (adder (s.reg dst) (~~~ s.reg src) (flagC s.sw)))

/-- `INC dst, src` (R170). -/
def execIncReg (m : CondMode) (dst src : Reg) (s : State) : Result :=
  guarded m (namesR6 [dst, src]) s (s.setRegCZS dst (adder (s.reg src) 0x0001 false))

/-- `DEC dst, src` (R171). -/
def execDecReg (m : CondMode) (dst src : Reg) (s : State) : Result :=
  guarded m (namesR6 [dst, src]) s (s.setRegCZS dst (adder (s.reg src) 0xFFFF false))

end Sys2Proof.Machine
end

