-- ==== Sys2Proof/Machine/CompareTest.lean ====
section
/-! DEFINITION. Compare and test, opcodes 0x23 and 0x24 (spec/45_compare_test.md): flags only (R215). -/

namespace Sys2Proof.Machine

/-- Set C, Z and S from a subtraction whose result is discarded (R216; the spec's decision D15: log 21). -/
def State.compare (s : State) (a b : Word) : State :=
  let rc := adder a (~~~ b) true
  s.setSw (setCZS s.sw rc.1 rc.2)

/-- Set Z and S from an AND whose result is discarded (R218). -/
def State.testBits (s : State) (a b : Word) : State :=
  s.setSw (setZS s.sw (a &&& b))

/-- `CMP dst, src` (R216). -/
def execCmpReg (m : CondMode) (dst src : Reg) (s : State) : Result :=
  guarded m (namesR6 [dst, src]) s (s.compare (s.reg dst) (s.reg src))

/-- `CMP dst, imm` (R217). -/
def execCmpImm (m : CondMode) (dst _src : Reg) (imm : Word) (s : State) : Result :=
  guarded m (namesR6 [dst]) s (s.compare (s.reg dst) imm)

/-- `TST dst, src` (R218). -/
def execTstReg (m : CondMode) (dst src : Reg) (s : State) : Result :=
  guarded m (namesR6 [dst, src]) s (s.testBits (s.reg dst) (s.reg src))

/-- `TST dst, imm` (R219). -/
def execTstImm (m : CondMode) (dst _src : Reg) (imm : Word) (s : State) : Result :=
  guarded m (namesR6 [dst]) s (s.testBits (s.reg dst) imm)

end Sys2Proof.Machine
end

