-- ==== Sys2Proof/Machine/Control.lean ====
section
/-! DEFINITION. Flag control, subroutine call and machine control, opcodes 0x20 to 0x22
(spec/44_control.md). -/

namespace Sys2Proof.Machine

/-- `SFL index` (R201): the dst field is no register, so index 6 is no access to R6. -/
def execSfl (m : CondMode) (idx : FlagIndex) (_src : Reg) (s : State) : Result :=
  guarded m (namesR6 []) s (s.setSw (applyFlagIndex s.sw idx))

/-- `SEX dst, src` (R203): push R7, then jump to src, which is read after the push. -/
def execSexReg (m : CondMode) (dst src : Reg) (s : State) : Result :=
  let s1 := s.push dst s.pc
  guarded m (namesR6 [dst, src]) s (s1.setPc (s1.reg src))

/-- `SEX dst, imm` (R204). -/
def execSexImm (m : CondMode) (dst _src : Reg) (imm : Word) (s : State) : Result :=
  guarded m (namesR6 [dst]) s ((s.push dst s.pc).setPc imm)

/-- `TMC` / `TMC src` (R205): in user mode the system call with the number in src, unless src is R6; in
kernel mode the return. The check of R6 applies in user mode only (spec/60_exceptions.md R302, log 23). -/
def execTmcReg (m : CondMode) (_dst src : Reg) (s : State) : Result :=
  guarded m (namesR6 [src]) s (if s.user then s.systemCall (s.reg src) else s.returnFromTrap)

/-- `TMC imm` (R206). -/
def execTmcImm (m : CondMode) (_dst _src : Reg) (imm : Word) (s : State) : Result :=
  guarded m (namesR6 []) s (if s.user then s.systemCall imm else s.returnFromTrap)

end Sys2Proof.Machine
end

