-- ==== Sys2Proof/Machine/DataMoves.lean ====
section
/-! DEFINITION. The data moves, opcodes 0x00 to 0x09 (spec/40_mov.md). No form writes a flag (R110; the
spec's decision D28: log 25). Every meaning starts from R7 already advanced (R110, spec/30_encoding.md R87). -/

namespace Sys2Proof.Machine

/-- `MOV dst, src` (R112). -/
def execMovRegReg (m : CondMode) (dst src : Reg) (s : State) : Result :=
  guarded m (namesR6 [dst, src]) s (s.setReg dst (s.reg src))

/-- `MOV dst, imm` (R113). -/
def execMovRegImm (m : CondMode) (dst _src : Reg) (imm : Word) (s : State) : Result :=
  guarded m (namesR6 [dst]) s (s.setReg dst imm)

/-- `MOV dst, [src]` (R114). -/
def execMovRegInd (m : CondMode) (dst src : Reg) (s : State) : Result :=
  guarded m (namesR6 [dst, src]) s (s.setReg dst (s.loadInd src))

/-- `MOV dst, [imm]` (R115). -/
def execMovRegAbs (m : CondMode) (dst _src : Reg) (imm : Word) (s : State) : Result :=
  guarded m (namesR6 [dst]) s (s.setReg dst (s.load imm))

/-- `MOV [dst], src` (R116). -/
def execMovIndReg (m : CondMode) (dst src : Reg) (s : State) : Result :=
  guarded m (namesR6 [dst, src]) s (s.store (s.regAddr dst) (s.reg src))

/-- `MOV [dst], imm` (R117). -/
def execMovIndImm (m : CondMode) (dst _src : Reg) (imm : Word) (s : State) : Result :=
  guarded m (namesR6 [dst]) s (s.store (s.regAddr dst) imm)

/-- `MOV [dst], [src]` (R118): the read precedes the write. -/
def execMovIndInd (m : CondMode) (dst src : Reg) (s : State) : Result :=
  guarded m (namesR6 [dst, src]) s (s.store (s.regAddr dst) (s.loadInd src))

/-- `MOV [dst], [imm]` (R119). -/
def execMovIndAbs (m : CondMode) (dst _src : Reg) (imm : Word) (s : State) : Result :=
  guarded m (namesR6 [dst]) s (s.store (s.regAddr dst) (s.load imm))

/-- `MOV [imm], src` (R120). -/
def execMovAbsReg (m : CondMode) (_dst src : Reg) (imm : Word) (s : State) : Result :=
  guarded m (namesR6 [src]) s (s.store imm (s.reg src))

/-- `MOV [imm], [src]` (R121). -/
def execMovAbsInd (m : CondMode) (_dst src : Reg) (imm : Word) (s : State) : Result :=
  guarded m (namesR6 [src]) s (s.store imm (s.loadInd src))

/-- `MOV dst, [src++]` (R122): the destination is written last, so it wins when dst = src (log 20). -/
def execMovRegPostInc (m : CondMode) (dst src : Reg) (s : State) : Result :=
  let (v, s1) := s.loadPostInc src
  guarded m (namesR6 [dst, src]) s (s1.setReg dst v)

/-- `MOV [dst++], src` (R123): the data register is read before the increment (log 20). -/
def execMovPostIncReg (m : CondMode) (dst src : Reg) (s : State) : Result :=
  guarded m (namesR6 [dst, src]) s (s.storePostInc dst (s.reg src))

/-- `MOV dst, [src+imm]` (R124). -/
def execMovRegDisp (m : CondMode) (dst src : Reg) (imm : Word) (s : State) : Result :=
  guarded m (namesR6 [dst, src]) s (s.setReg dst (s.loadDisp src imm))

/-- `MOV [dst], [src+imm]` (R125). -/
def execMovIndDisp (m : CondMode) (dst src : Reg) (imm : Word) (s : State) : Result :=
  guarded m (namesR6 [dst, src]) s (s.store (s.regAddr dst) (s.loadDisp src imm))

/-- `MVL dst, src` (R126): `zext_8` of the low byte. -/
def execMvl (m : CondMode) (dst src : Reg) (s : State) : Result :=
  guarded m (namesR6 [dst, src]) s (s.setReg dst (wordOfBytes 0 (lowByte (s.reg src))))

/-- `MVH dst, src` (R127): `zext_8` of the high byte. -/
def execMvh (m : CondMode) (dst src : Reg) (s : State) : Result :=
  guarded m (namesR6 [dst, src]) s (s.setReg dst (wordOfBytes 0 (highByte (s.reg src))))

/-- `MOV [dst+imm], src` (R128). -/
def execMovDispReg (m : CondMode) (dst src : Reg) (imm : Word) (s : State) : Result :=
  guarded m (namesR6 [dst, src]) s (s.store (s.dispAddr dst imm) (s.reg src))

/-- `MOV [dst+imm], [src]` (R129). -/
def execMovDispInd (m : CondMode) (dst src : Reg) (imm : Word) (s : State) : Result :=
  guarded m (namesR6 [dst, src]) s (s.store (s.dispAddr dst imm) (s.loadInd src))

/-- `NUL dst` (R130). -/
def execNul (m : CondMode) (dst _src : Reg) (s : State) : Result :=
  guarded m (namesR6 [dst]) s (s.setReg dst 0x0000)

/-- `MKW dst, src` (R131): the low byte of src is OR-ed into the high byte of dst. -/
def execMkw (m : CondMode) (dst src : Reg) (s : State) : Result :=
  guarded m (namesR6 [dst, src]) s
    (s.setReg dst (s.reg dst ||| wordOfBytes (lowByte (s.reg src)) 0))

end Sys2Proof.Machine
end

