-- ==== Sys2Proof/Machine/Illegal.lean ====
section
/-! DEFINITION. The 63 unused (opcode, I) pairs (spec/30_encoding.md R95): each raises Trap(0) when its
condition passes, after R7 has passed 1 + I words, and uses no field (the spec's decisions D8, D9: log 15, 16). -/

namespace Sys2Proof.Machine

/-- op 0x0E, I=1: unused (R95). -/
def execIllegal0EImm (m : CondMode) (_dst _src : Reg) (_imm : Word) (s : State) : Result := illegal m s

/-- op 0x0F, I=1: unused (R95). -/
def execIllegal0FImm (m : CondMode) (_dst _src : Reg) (_imm : Word) (s : State) : Result := illegal m s

/-- op 0x13, I=1: unused (R95). -/
def execIllegal13Imm (m : CondMode) (_dst _src : Reg) (_imm : Word) (s : State) : Result := illegal m s

/-- op 0x14, I=1: unused (R95). -/
def execIllegal14Imm (m : CondMode) (_dst _src : Reg) (_imm : Word) (s : State) : Result := illegal m s

/-- op 0x15, I=1: unused (R95). -/
def execIllegal15Imm (m : CondMode) (_dst _src : Reg) (_imm : Word) (s : State) : Result := illegal m s

/-- op 0x16, I=1: unused (R95). -/
def execIllegal16Imm (m : CondMode) (_dst _src : Reg) (_imm : Word) (s : State) : Result := illegal m s

/-- op 0x17, I=1: unused (R95). -/
def execIllegal17Imm (m : CondMode) (_dst _src : Reg) (_imm : Word) (s : State) : Result := illegal m s

/-- op 0x18, I=1: unused (R95). -/
def execIllegal18Imm (m : CondMode) (_dst _src : Reg) (_imm : Word) (s : State) : Result := illegal m s

/-- op 0x19, I=1: unused (R95). -/
def execIllegal19Imm (m : CondMode) (_dst _src : Reg) (_imm : Word) (s : State) : Result := illegal m s

/-- op 0x1A, I=1: unused (R95). -/
def execIllegal1AImm (m : CondMode) (_dst _src : Reg) (_imm : Word) (s : State) : Result := illegal m s

/-- op 0x1B, I=1: unused (R95). -/
def execIllegal1BImm (m : CondMode) (_dst _src : Reg) (_imm : Word) (s : State) : Result := illegal m s

/-- op 0x1C, I=1: unused (R95). -/
def execIllegal1CImm (m : CondMode) (_dst _src : Reg) (_imm : Word) (s : State) : Result := illegal m s

/-- op 0x20, I=1: unused (R95). -/
def execIllegal20Imm (m : CondMode) (_dst _src : Reg) (_imm : Word) (s : State) : Result := illegal m s

/-- op 0x27, I=0: unused (R95). -/
def execIllegal27Word (m : CondMode) (_dst _src : Reg) (s : State) : Result := illegal m s

/-- op 0x27, I=1: unused (R95). -/
def execIllegal27Imm (m : CondMode) (_dst _src : Reg) (_imm : Word) (s : State) : Result := illegal m s

/-- op 0x28, I=0: unused (R95). -/
def execIllegal28Word (m : CondMode) (_dst _src : Reg) (s : State) : Result := illegal m s

/-- op 0x28, I=1: unused (R95). -/
def execIllegal28Imm (m : CondMode) (_dst _src : Reg) (_imm : Word) (s : State) : Result := illegal m s

/-- op 0x29, I=0: unused (R95). -/
def execIllegal29Word (m : CondMode) (_dst _src : Reg) (s : State) : Result := illegal m s

/-- op 0x29, I=1: unused (R95). -/
def execIllegal29Imm (m : CondMode) (_dst _src : Reg) (_imm : Word) (s : State) : Result := illegal m s

/-- op 0x2A, I=0: unused (R95). -/
def execIllegal2AWord (m : CondMode) (_dst _src : Reg) (s : State) : Result := illegal m s

/-- op 0x2A, I=1: unused (R95). -/
def execIllegal2AImm (m : CondMode) (_dst _src : Reg) (_imm : Word) (s : State) : Result := illegal m s

/-- op 0x2B, I=0: unused (R95). -/
def execIllegal2BWord (m : CondMode) (_dst _src : Reg) (s : State) : Result := illegal m s

/-- op 0x2B, I=1: unused (R95). -/
def execIllegal2BImm (m : CondMode) (_dst _src : Reg) (_imm : Word) (s : State) : Result := illegal m s

/-- op 0x2C, I=0: unused (R95). -/
def execIllegal2CWord (m : CondMode) (_dst _src : Reg) (s : State) : Result := illegal m s

/-- op 0x2C, I=1: unused (R95). -/
def execIllegal2CImm (m : CondMode) (_dst _src : Reg) (_imm : Word) (s : State) : Result := illegal m s

/-- op 0x2D, I=0: unused (R95). -/
def execIllegal2DWord (m : CondMode) (_dst _src : Reg) (s : State) : Result := illegal m s

/-- op 0x2D, I=1: unused (R95). -/
def execIllegal2DImm (m : CondMode) (_dst _src : Reg) (_imm : Word) (s : State) : Result := illegal m s

/-- op 0x2E, I=0: unused (R95). -/
def execIllegal2EWord (m : CondMode) (_dst _src : Reg) (s : State) : Result := illegal m s

/-- op 0x2E, I=1: unused (R95). -/
def execIllegal2EImm (m : CondMode) (_dst _src : Reg) (_imm : Word) (s : State) : Result := illegal m s

/-- op 0x2F, I=0: unused (R95). -/
def execIllegal2FWord (m : CondMode) (_dst _src : Reg) (s : State) : Result := illegal m s

/-- op 0x2F, I=1: unused (R95). -/
def execIllegal2FImm (m : CondMode) (_dst _src : Reg) (_imm : Word) (s : State) : Result := illegal m s

/-- op 0x30, I=0: unused (R95). -/
def execIllegal30Word (m : CondMode) (_dst _src : Reg) (s : State) : Result := illegal m s

/-- op 0x30, I=1: unused (R95). -/
def execIllegal30Imm (m : CondMode) (_dst _src : Reg) (_imm : Word) (s : State) : Result := illegal m s

/-- op 0x31, I=0: unused (R95). -/
def execIllegal31Word (m : CondMode) (_dst _src : Reg) (s : State) : Result := illegal m s

/-- op 0x31, I=1: unused (R95). -/
def execIllegal31Imm (m : CondMode) (_dst _src : Reg) (_imm : Word) (s : State) : Result := illegal m s

/-- op 0x32, I=0: unused (R95). -/
def execIllegal32Word (m : CondMode) (_dst _src : Reg) (s : State) : Result := illegal m s

/-- op 0x32, I=1: unused (R95). -/
def execIllegal32Imm (m : CondMode) (_dst _src : Reg) (_imm : Word) (s : State) : Result := illegal m s

/-- op 0x33, I=0: unused (R95). -/
def execIllegal33Word (m : CondMode) (_dst _src : Reg) (s : State) : Result := illegal m s

/-- op 0x33, I=1: unused (R95). -/
def execIllegal33Imm (m : CondMode) (_dst _src : Reg) (_imm : Word) (s : State) : Result := illegal m s

/-- op 0x34, I=0: unused (R95). -/
def execIllegal34Word (m : CondMode) (_dst _src : Reg) (s : State) : Result := illegal m s

/-- op 0x34, I=1: unused (R95). -/
def execIllegal34Imm (m : CondMode) (_dst _src : Reg) (_imm : Word) (s : State) : Result := illegal m s

/-- op 0x35, I=0: unused (R95). -/
def execIllegal35Word (m : CondMode) (_dst _src : Reg) (s : State) : Result := illegal m s

/-- op 0x35, I=1: unused (R95). -/
def execIllegal35Imm (m : CondMode) (_dst _src : Reg) (_imm : Word) (s : State) : Result := illegal m s

/-- op 0x36, I=0: unused (R95). -/
def execIllegal36Word (m : CondMode) (_dst _src : Reg) (s : State) : Result := illegal m s

/-- op 0x36, I=1: unused (R95). -/
def execIllegal36Imm (m : CondMode) (_dst _src : Reg) (_imm : Word) (s : State) : Result := illegal m s

/-- op 0x37, I=0: unused (R95). -/
def execIllegal37Word (m : CondMode) (_dst _src : Reg) (s : State) : Result := illegal m s

/-- op 0x37, I=1: unused (R95). -/
def execIllegal37Imm (m : CondMode) (_dst _src : Reg) (_imm : Word) (s : State) : Result := illegal m s

/-- op 0x38, I=0: unused (R95). -/
def execIllegal38Word (m : CondMode) (_dst _src : Reg) (s : State) : Result := illegal m s

/-- op 0x38, I=1: unused (R95). -/
def execIllegal38Imm (m : CondMode) (_dst _src : Reg) (_imm : Word) (s : State) : Result := illegal m s

/-- op 0x39, I=0: unused (R95). -/
def execIllegal39Word (m : CondMode) (_dst _src : Reg) (s : State) : Result := illegal m s

/-- op 0x39, I=1: unused (R95). -/
def execIllegal39Imm (m : CondMode) (_dst _src : Reg) (_imm : Word) (s : State) : Result := illegal m s

/-- op 0x3A, I=0: unused (R95). -/
def execIllegal3AWord (m : CondMode) (_dst _src : Reg) (s : State) : Result := illegal m s

/-- op 0x3A, I=1: unused (R95). -/
def execIllegal3AImm (m : CondMode) (_dst _src : Reg) (_imm : Word) (s : State) : Result := illegal m s

/-- op 0x3B, I=0: unused (R95). -/
def execIllegal3BWord (m : CondMode) (_dst _src : Reg) (s : State) : Result := illegal m s

/-- op 0x3B, I=1: unused (R95). -/
def execIllegal3BImm (m : CondMode) (_dst _src : Reg) (_imm : Word) (s : State) : Result := illegal m s

/-- op 0x3C, I=0: unused (R95). -/
def execIllegal3CWord (m : CondMode) (_dst _src : Reg) (s : State) : Result := illegal m s

/-- op 0x3C, I=1: unused (R95). -/
def execIllegal3CImm (m : CondMode) (_dst _src : Reg) (_imm : Word) (s : State) : Result := illegal m s

/-- op 0x3D, I=0: unused (R95). -/
def execIllegal3DWord (m : CondMode) (_dst _src : Reg) (s : State) : Result := illegal m s

/-- op 0x3D, I=1: unused (R95). -/
def execIllegal3DImm (m : CondMode) (_dst _src : Reg) (_imm : Word) (s : State) : Result := illegal m s

/-- op 0x3E, I=0: unused (R95). -/
def execIllegal3EWord (m : CondMode) (_dst _src : Reg) (s : State) : Result := illegal m s

/-- op 0x3E, I=1: unused (R95). -/
def execIllegal3EImm (m : CondMode) (_dst _src : Reg) (_imm : Word) (s : State) : Result := illegal m s

/-- op 0x3F, I=0: unused (R95). -/
def execIllegal3FWord (m : CondMode) (_dst _src : Reg) (s : State) : Result := illegal m s

/-- op 0x3F, I=1: unused (R95). -/
def execIllegal3FImm (m : CondMode) (_dst _src : Reg) (_imm : Word) (s : State) : Result := illegal m s

end Sys2Proof.Machine
end

