-- ==== Sys2Proof/Machine/InputOutput.lean ====
section
/-! DEFINITION. The I/O bus moves, opcodes 0x0D (I = 1), 0x25 and 0x26 (spec/46_io.md): privileged, one bus
access each, no flag (R226). -/

namespace Sys2Proof.Machine

/-- `MOV (imm), src` on the I/O bus (R227). -/
def execOutAbsReg (m : CondMode) (_dst src : Reg) (imm : Word) (s : State) : Result :=
  guarded m true s (s.ioWrite imm (s.reg src))

/-- `MOV (dst), src` on the I/O bus (R228). -/
def execOutIndReg (m : CondMode) (dst src : Reg) (s : State) : Result :=
  guarded m true s (s.ioWrite (s.regAddr dst) (s.reg src))

/-- `MOV (dst), imm` on the I/O bus (R229). -/
def execOutIndImm (m : CondMode) (dst _src : Reg) (imm : Word) (s : State) : Result :=
  guarded m true s (s.ioWrite (s.regAddr dst) imm)

/-- Read the I/O bus into a register. -/
def State.ioReadTo (s : State) (dst : Reg) (a : Word) : State :=
  let (v, s1) := s.ioRead a
  s1.setReg dst v

/-- `MOV dst, (src)` on the I/O bus (R230). -/
def execInRegInd (m : CondMode) (dst src : Reg) (s : State) : Result :=
  guarded m true s (s.ioReadTo dst (s.regAddr src))

/-- `MOV dst, (imm)` on the I/O bus (R231). -/
def execInRegAbs (m : CondMode) (dst _src : Reg) (imm : Word) (s : State) : Result :=
  guarded m true s (s.ioReadTo dst imm)

end Sys2Proof.Machine
end

