-- ==== Sys2Proof/Machine/ShiftLogic.lean ====
section
/-! DEFINITION. One-bit shifts and rotates, complement, negate and logic, opcodes 0x17 to 0x1F
(spec/43_shift_logic.md). -/

namespace Sys2Proof.Machine

/-- `SHL dst, src` (R181). -/
def execShlReg (m : CondMode) (dst src : Reg) (s : State) : Result :=
  guarded m (namesR6 [dst, src]) s (s.setRegCZS dst (shiftLeft1 (s.reg src)))

/-- `ROL dst, src` (R182). -/
def execRolReg (m : CondMode) (dst src : Reg) (s : State) : Result :=
  guarded m (namesR6 [dst, src]) s (s.setRegCZS dst (rotateLeft1 (s.reg src) (flagC s.sw)))

/-- `SHR dst, src` (R183). -/
def execShrReg (m : CondMode) (dst src : Reg) (s : State) : Result :=
  guarded m (namesR6 [dst, src]) s (s.setRegCZS dst (shiftRight1 (s.reg src)))

/-- `ROR dst, src` (R184). -/
def execRorReg (m : CondMode) (dst src : Reg) (s : State) : Result :=
  guarded m (namesR6 [dst, src]) s (s.setRegCZS dst (rotateRight1 (s.reg src) (flagC s.sw)))

/-- `NOT dst, src` (R185): C is unchanged. -/
def execNotReg (m : CondMode) (dst src : Reg) (s : State) : Result :=
  guarded m (namesR6 [dst, src]) s (s.setRegZS dst (~~~ s.reg src))

/-- `NEG dst, src` (R186): the carry of the +1 addition. -/
def execNegReg (m : CondMode) (dst src : Reg) (s : State) : Result :=
  guarded m (namesR6 [dst, src]) s (s.setRegCZS dst (adder (~~~ s.reg src) 0x0000 true))

/-- `ANL dst, src` (R187): C is unchanged. -/
def execAnlReg (m : CondMode) (dst src : Reg) (s : State) : Result :=
  guarded m (namesR6 [dst, src]) s (s.setRegZS dst (s.reg dst &&& s.reg src))

/-- `ANL dst, imm` (R188). -/
def execAnlImm (m : CondMode) (dst _src : Reg) (imm : Word) (s : State) : Result :=
  guarded m (namesR6 [dst]) s (s.setRegZS dst (s.reg dst &&& imm))

/-- `ORL dst, src` (R189). -/
def execOrlReg (m : CondMode) (dst src : Reg) (s : State) : Result :=
  guarded m (namesR6 [dst, src]) s (s.setRegZS dst (s.reg dst ||| s.reg src))

/-- `ORL dst, imm` (R190). -/
def execOrlImm (m : CondMode) (dst _src : Reg) (imm : Word) (s : State) : Result :=
  guarded m (namesR6 [dst]) s (s.setRegZS dst (s.reg dst ||| imm))

/-- `XOR dst, src` (R191). -/
def execXorReg (m : CondMode) (dst src : Reg) (s : State) : Result :=
  guarded m (namesR6 [dst, src]) s (s.setRegZS dst (s.reg dst ^^^ s.reg src))

/-- `XOR dst, imm` (R192). -/
def execXorImm (m : CondMode) (dst _src : Reg) (imm : Word) (s : State) : Result :=
  guarded m (namesR6 [dst]) s (s.setRegZS dst (s.reg dst ^^^ imm))

end Sys2Proof.Machine
end

