-- ==== Sys2Proof/Machine/StatusStack.lean ====
section
/-! DEFINITION. The status word moves and the stack moves, opcodes 0x0A to 0x0F
(spec/41_status_and_stack_moves.md). No form is privileged in itself (R140). -/

namespace Sys2Proof.Machine

/-- `MOV dst, $SW` (R141): allowed in user mode. -/
def execMovRegSw (m : CondMode) (dst _src : Reg) (s : State) : Result :=
  guarded m (namesR6 [dst]) s (s.setReg dst s.sw)

/-- `MOV [imm], $SW` (R142): no register field is used. -/
def execMovAbsSw (m : CondMode) (_dst _src : Reg) (imm : Word) (s : State) : Result :=
  guarded m (namesR6 []) s (s.store imm s.sw)

/-- `MOV $SW, dst` (R143): the register is the one of the dst field (the spec's decision D13: log 19). -/
def execMovSwReg (m : CondMode) (dst _src : Reg) (s : State) : Result :=
  guarded m (namesR6 [dst]) s (s.setSw (writeSw s.sw (s.reg dst)))

/-- `MOV $SW, imm` (R144). -/
def execMovSwImm (m : CondMode) (_dst _src : Reg) (imm : Word) (s : State) : Result :=
  guarded m (namesR6 []) s (s.setSw (writeSw s.sw imm))

/-- `MOV [dst--], src` (R145): the data register is read before the decrement (log 20). -/
def execMovPostDecReg (m : CondMode) (dst src : Reg) (s : State) : Result :=
  guarded m (namesR6 [dst, src]) s (s.storePostDec dst (s.reg src))

/-- `MOV [dst--], imm` (R146). -/
def execMovPostDecImm (m : CondMode) (dst _src : Reg) (imm : Word) (s : State) : Result :=
  guarded m (namesR6 [dst]) s (s.storePostDec dst imm)

/-- `MOV [dst--], $SW` (R147). -/
def execMovPostDecSw (m : CondMode) (dst _src : Reg) (s : State) : Result :=
  guarded m (namesR6 [dst]) s (s.storePostDec dst s.sw)

/-- `MOV dst, [++src]` (R148): the destination is written last, so it wins when dst = src (log 20). -/
def execMovRegPreInc (m : CondMode) (dst src : Reg) (s : State) : Result :=
  let (v, s1) := s.loadPreInc src
  guarded m (namesR6 [dst, src]) s (s1.setReg dst v)

/-- `MOV $SW, [++src]` (R149). -/
def execMovSwPreInc (m : CondMode) (_dst src : Reg) (s : State) : Result :=
  let (v, s1) := s.loadPreInc src
  guarded m (namesR6 [src]) s (s1.setSw (writeSw s1.sw v))

end Sys2Proof.Machine
end

