-- ==== Sys2Proof/Machine/Dispatch.lean ====
section
/-! DEFINITION. Which meaning each instruction has: one arm per row of the opcode map (spec/30_encoding.md R92).
`exec i s` is steps 3 to 6 of R86, from a state whose R7 has been advanced past the instruction. -/

namespace Sys2Proof.Machine

def exec (i : Instr) (s : State) : Host.Outcome State Fault Refusal :=
  match i with
  | .movRegReg m d r => Sys2Proof.Machine.execMovRegReg m d r s
  | .movRegImm m d r imm => Sys2Proof.Machine.execMovRegImm m d r imm s
  | .movRegInd m d r => Sys2Proof.Machine.execMovRegInd m d r s
  | .movRegAbs m d r imm => Sys2Proof.Machine.execMovRegAbs m d r imm s
  | .movIndReg m d r => Sys2Proof.Machine.execMovIndReg m d r s
  | .movIndImm m d r imm => Sys2Proof.Machine.execMovIndImm m d r imm s
  | .movIndInd m d r => Sys2Proof.Machine.execMovIndInd m d r s
  | .movIndAbs m d r imm => Sys2Proof.Machine.execMovIndAbs m d r imm s
  | .movRegPostInc m d r => Sys2Proof.Machine.execMovRegPostInc m d r s
  | .movAbsReg m d r imm => Sys2Proof.Machine.execMovAbsReg m d r imm s
  | .movPostIncReg m d r => Sys2Proof.Machine.execMovPostIncReg m d r s
  | .movAbsInd m d r imm => Sys2Proof.Machine.execMovAbsInd m d r imm s
  | .mvl m d r => Sys2Proof.Machine.execMvl m d r s
  | .movRegDisp m d r imm => Sys2Proof.Machine.execMovRegDisp m d r imm s
  | .mvh m d r => Sys2Proof.Machine.execMvh m d r s
  | .movIndDisp m d r imm => Sys2Proof.Machine.execMovIndDisp m d r imm s
  | .nul m d r => Sys2Proof.Machine.execNul m d r s
  | .movDispReg m d r imm => Sys2Proof.Machine.execMovDispReg m d r imm s
  | .mkw m d r => Sys2Proof.Machine.execMkw m d r s
  | .movDispInd m d r imm => Sys2Proof.Machine.execMovDispInd m d r imm s
  | .movRegSw m d r => Sys2Proof.Machine.execMovRegSw m d r s
  | .movAbsSw m d r imm => Sys2Proof.Machine.execMovAbsSw m d r imm s
  | .movSwReg m d r => Sys2Proof.Machine.execMovSwReg m d r s
  | .movSwImm m d r imm => Sys2Proof.Machine.execMovSwImm m d r imm s
  | .movPostDecReg m d r => Sys2Proof.Machine.execMovPostDecReg m d r s
  | .movPostDecImm m d r imm => Sys2Proof.Machine.execMovPostDecImm m d r imm s
  | .movPostDecSw m d r => Sys2Proof.Machine.execMovPostDecSw m d r s
  | .outAbsReg m d r imm => Sys2Proof.Machine.execOutAbsReg m d r imm s
  | .movRegPreInc m d r => Sys2Proof.Machine.execMovRegPreInc m d r s
  | .illegal0EImm m d r imm => Sys2Proof.Machine.execIllegal0EImm m d r imm s
  | .movSwPreInc m d r => Sys2Proof.Machine.execMovSwPreInc m d r s
  | .illegal0FImm m d r imm => Sys2Proof.Machine.execIllegal0FImm m d r imm s
  | .addReg m d r => Sys2Proof.Machine.execAddReg m d r s
  | .addImm m d r imm => Sys2Proof.Machine.execAddImm m d r imm s
  | .adcReg m d r => Sys2Proof.Machine.execAdcReg m d r s
  | .adcImm m d r imm => Sys2Proof.Machine.execAdcImm m d r imm s
  | .assReg m d r => Sys2Proof.Machine.execAssReg m d r s
  | .assImm m d r imm => Sys2Proof.Machine.execAssImm m d r imm s
  | .subReg m d r => Sys2Proof.Machine.execSubReg m d r s
  | .illegal13Imm m d r imm => Sys2Proof.Machine.execIllegal13Imm m d r imm s
  | .sbcReg m d r => Sys2Proof.Machine.execSbcReg m d r s
  | .illegal14Imm m d r imm => Sys2Proof.Machine.execIllegal14Imm m d r imm s
  | .incReg m d r => Sys2Proof.Machine.execIncReg m d r s
  | .illegal15Imm m d r imm => Sys2Proof.Machine.execIllegal15Imm m d r imm s
  | .decReg m d r => Sys2Proof.Machine.execDecReg m d r s
  | .illegal16Imm m d r imm => Sys2Proof.Machine.execIllegal16Imm m d r imm s
  | .shlReg m d r => Sys2Proof.Machine.execShlReg m d r s
  | .illegal17Imm m d r imm => Sys2Proof.Machine.execIllegal17Imm m d r imm s
  | .rolReg m d r => Sys2Proof.Machine.execRolReg m d r s
  | .illegal18Imm m d r imm => Sys2Proof.Machine.execIllegal18Imm m d r imm s
  | .shrReg m d r => Sys2Proof.Machine.execShrReg m d r s
  | .illegal19Imm m d r imm => Sys2Proof.Machine.execIllegal19Imm m d r imm s
  | .rorReg m d r => Sys2Proof.Machine.execRorReg m d r s
  | .illegal1AImm m d r imm => Sys2Proof.Machine.execIllegal1AImm m d r imm s
  | .notReg m d r => Sys2Proof.Machine.execNotReg m d r s
  | .illegal1BImm m d r imm => Sys2Proof.Machine.execIllegal1BImm m d r imm s
  | .negReg m d r => Sys2Proof.Machine.execNegReg m d r s
  | .illegal1CImm m d r imm => Sys2Proof.Machine.execIllegal1CImm m d r imm s
  | .anlReg m d r => Sys2Proof.Machine.execAnlReg m d r s
  | .anlImm m d r imm => Sys2Proof.Machine.execAnlImm m d r imm s
  | .orlReg m d r => Sys2Proof.Machine.execOrlReg m d r s
  | .orlImm m d r imm => Sys2Proof.Machine.execOrlImm m d r imm s
  | .xorReg m d r => Sys2Proof.Machine.execXorReg m d r s
  | .xorImm m d r imm => Sys2Proof.Machine.execXorImm m d r imm s
  | .sfl m idx r => Sys2Proof.Machine.execSfl m idx r s
  | .illegal20Imm m d r imm => Sys2Proof.Machine.execIllegal20Imm m d r imm s
  | .sexReg m d r => Sys2Proof.Machine.execSexReg m d r s
  | .sexImm m d r imm => Sys2Proof.Machine.execSexImm m d r imm s
  | .tmcReg m d r => Sys2Proof.Machine.execTmcReg m d r s
  | .tmcImm m d r imm => Sys2Proof.Machine.execTmcImm m d r imm s
  | .cmpReg m d r => Sys2Proof.Machine.execCmpReg m d r s
  | .cmpImm m d r imm => Sys2Proof.Machine.execCmpImm m d r imm s
  | .tstReg m d r => Sys2Proof.Machine.execTstReg m d r s
  | .tstImm m d r imm => Sys2Proof.Machine.execTstImm m d r imm s
  | .outIndReg m d r => Sys2Proof.Machine.execOutIndReg m d r s
  | .outIndImm m d r imm => Sys2Proof.Machine.execOutIndImm m d r imm s
  | .inRegInd m d r => Sys2Proof.Machine.execInRegInd m d r s
  | .inRegAbs m d r imm => Sys2Proof.Machine.execInRegAbs m d r imm s
  | .illegal27Word m d r => Sys2Proof.Machine.execIllegal27Word m d r s
  | .illegal27Imm m d r imm => Sys2Proof.Machine.execIllegal27Imm m d r imm s
  | .illegal28Word m d r => Sys2Proof.Machine.execIllegal28Word m d r s
  | .illegal28Imm m d r imm => Sys2Proof.Machine.execIllegal28Imm m d r imm s
  | .illegal29Word m d r => Sys2Proof.Machine.execIllegal29Word m d r s
  | .illegal29Imm m d r imm => Sys2Proof.Machine.execIllegal29Imm m d r imm s
  | .illegal2AWord m d r => Sys2Proof.Machine.execIllegal2AWord m d r s
  | .illegal2AImm m d r imm => Sys2Proof.Machine.execIllegal2AImm m d r imm s
  | .illegal2BWord m d r => Sys2Proof.Machine.execIllegal2BWord m d r s
  | .illegal2BImm m d r imm => Sys2Proof.Machine.execIllegal2BImm m d r imm s
  | .illegal2CWord m d r => Sys2Proof.Machine.execIllegal2CWord m d r s
  | .illegal2CImm m d r imm => Sys2Proof.Machine.execIllegal2CImm m d r imm s
  | .illegal2DWord m d r => Sys2Proof.Machine.execIllegal2DWord m d r s
  | .illegal2DImm m d r imm => Sys2Proof.Machine.execIllegal2DImm m d r imm s
  | .illegal2EWord m d r => Sys2Proof.Machine.execIllegal2EWord m d r s
  | .illegal2EImm m d r imm => Sys2Proof.Machine.execIllegal2EImm m d r imm s
  | .illegal2FWord m d r => Sys2Proof.Machine.execIllegal2FWord m d r s
  | .illegal2FImm m d r imm => Sys2Proof.Machine.execIllegal2FImm m d r imm s
  | .illegal30Word m d r => Sys2Proof.Machine.execIllegal30Word m d r s
  | .illegal30Imm m d r imm => Sys2Proof.Machine.execIllegal30Imm m d r imm s
  | .illegal31Word m d r => Sys2Proof.Machine.execIllegal31Word m d r s
  | .illegal31Imm m d r imm => Sys2Proof.Machine.execIllegal31Imm m d r imm s
  | .illegal32Word m d r => Sys2Proof.Machine.execIllegal32Word m d r s
  | .illegal32Imm m d r imm => Sys2Proof.Machine.execIllegal32Imm m d r imm s
  | .illegal33Word m d r => Sys2Proof.Machine.execIllegal33Word m d r s
  | .illegal33Imm m d r imm => Sys2Proof.Machine.execIllegal33Imm m d r imm s
  | .illegal34Word m d r => Sys2Proof.Machine.execIllegal34Word m d r s
  | .illegal34Imm m d r imm => Sys2Proof.Machine.execIllegal34Imm m d r imm s
  | .illegal35Word m d r => Sys2Proof.Machine.execIllegal35Word m d r s
  | .illegal35Imm m d r imm => Sys2Proof.Machine.execIllegal35Imm m d r imm s
  | .illegal36Word m d r => Sys2Proof.Machine.execIllegal36Word m d r s
  | .illegal36Imm m d r imm => Sys2Proof.Machine.execIllegal36Imm m d r imm s
  | .illegal37Word m d r => Sys2Proof.Machine.execIllegal37Word m d r s
  | .illegal37Imm m d r imm => Sys2Proof.Machine.execIllegal37Imm m d r imm s
  | .illegal38Word m d r => Sys2Proof.Machine.execIllegal38Word m d r s
  | .illegal38Imm m d r imm => Sys2Proof.Machine.execIllegal38Imm m d r imm s
  | .illegal39Word m d r => Sys2Proof.Machine.execIllegal39Word m d r s
  | .illegal39Imm m d r imm => Sys2Proof.Machine.execIllegal39Imm m d r imm s
  | .illegal3AWord m d r => Sys2Proof.Machine.execIllegal3AWord m d r s
  | .illegal3AImm m d r imm => Sys2Proof.Machine.execIllegal3AImm m d r imm s
  | .illegal3BWord m d r => Sys2Proof.Machine.execIllegal3BWord m d r s
  | .illegal3BImm m d r imm => Sys2Proof.Machine.execIllegal3BImm m d r imm s
  | .illegal3CWord m d r => Sys2Proof.Machine.execIllegal3CWord m d r s
  | .illegal3CImm m d r imm => Sys2Proof.Machine.execIllegal3CImm m d r imm s
  | .illegal3DWord m d r => Sys2Proof.Machine.execIllegal3DWord m d r s
  | .illegal3DImm m d r imm => Sys2Proof.Machine.execIllegal3DImm m d r imm s
  | .illegal3EWord m d r => Sys2Proof.Machine.execIllegal3EWord m d r s
  | .illegal3EImm m d r imm => Sys2Proof.Machine.execIllegal3EImm m d r imm s
  | .illegal3FWord m d r => Sys2Proof.Machine.execIllegal3FWord m d r s
  | .illegal3FImm m d r imm => Sys2Proof.Machine.execIllegal3FImm m d r imm s

end Sys2Proof.Machine
end

