-- ==== Sys2Proof/Machine/Fetch.lean ====
section
/-! DEFINITION. Fetching an instruction (spec/30_encoding.md R86 step 2): R7 is advanced past the
instruction word and past the immediate word before anything else happens (spec/10_state.md R25). -/

namespace Sys2Proof.Machine

/-- The instruction at R7, and the state with R7 past it. Fetch reads the same memory that stores write
(spec/20_memory.md R67). -/
def fetch (s : State) : Instr × State :=
  let iw := s.load s.pc
  let s1 := s.setPc (s.pc + 1)
  if hasImmOf iw then
    let imm := s1.load s1.pc
    (decodeWords iw imm, s1.setPc (s1.pc + 1))
  else (decodeWords iw 0, s1)

end Sys2Proof.Machine
end

