-- ==== Sys2Proof/Machine/Interrupts.lean ====
section
/-! DEFINITION. Interrupt sampling and the choice among simultaneous interrupts
(spec/30_encoding.md R86 step 1, spec/60_exceptions.md R310 to R313). -/

namespace Sys2Proof.Machine

/-- The levels of the 8 signals at this sampling point: the script's next entry while the script lasts,
and a free value after it (log 6). -/
def State.takeLevels (s : State) : BitVec 8 × State :=
  match s.irqScript with
  | v :: rest => (v, { s with irqScript := rest })
  | [] => (Config.irqLevels s.draws, { s with draws := s.draws + 1 })

/-- The numbers of the signals in a set, lowest first. -/
def irqMembers (p : BitVec 8) : List (Fin 8) :=
  ([0, 1, 2, 3, 4, 5, 6, 7] : List (Fin 8)).filter fun k => p.getLsbD k.val

/-- `SelectIrq(S)` (spec/60_exceptions.md R312): the one member when there is one; among several, the one
the free value names if it is a member and the lowest number otherwise, so that any member may be taken
and nothing else (log 7). -/
def selectIrq (p : BitVec 8) (s : State) : Option (Fin 8) × State :=
  match irqMembers p with
  | [] => (none, s)
  | [k] => (some k, s)
  | k :: _ =>
    let c := Config.irqChoice s.draws p
    (some (if p.getLsbD c.val then c else k), { s with draws := s.draws + 1 })

/-- The interrupt to take before the next fetch, if any: none when SW.I = 0; else one of the asserted
signals whose mask bit is 1 (spec/60_exceptions.md R311; log 6, 11). -/
def sampleInterrupt (s : State) : Option (Fin 8) × State :=
  if flagI s.sw then
    let (levels, s1) := s.takeLevels
    selectIrq (levels &&& irqMask s.sw) s1
  else (none, s)

end Sys2Proof.Machine
end

