-- ==== Sys2Proof/Machine/Step.lean ====
section
/-! DEFINITION. One step of the CPU (spec/30_encoding.md R86): an interrupt entry, or one instruction. -/

namespace Sys2Proof.Machine

/-- `Step()` (R86): sample the interrupts; take one if there is one to take; otherwise fetch at R7, advance
R7, and execute. -/
def step (s : State) : Host.Outcome State Fault Refusal :=
  match sampleInterrupt s with
  | (some k, s1) => .next (s1.enterInterrupt k)
  | (none, s1) =>
    let (i, s2) := fetch s1
    exec i s2

/-- The state with the instruction whose bits are `w` (bit 0 the least significant bit of the first word)
stored at R7, where the next step fetches: both words of the longest instruction are written, the bits
above `nbits` as zeros. Where interrupts are enabled the environment drives no signal at that step's
sampling point, so that the step fetches. -/
def State.withFetchWord (s : State) (nbits w : Nat) : State :=
  let ws := tableWords nbits w
  let s1 := (s.store s.pc ws.1).store (s.pc + 1) ws.2
  { s1 with irqScript := if flagI s.sw then 0 :: s.irqScript else s.irqScript }

end Sys2Proof.Machine
end

