-- ==== Sys2Proof/Machine/AsmExpr.lean ====
section
/-! DEFINITION. The assembler's expressions (spec/47_assembler.md R260 to R263): numbers, names, the grammar,
and the value. The assembler is a tool and no part of the CPU (R240); nothing here touches the state. How a
line of text is cut into tokens is not in the source, so the grammar starts from tokens (log 33). -/

namespace Sys2Proof.Asm

/-- A NAMESTRING (R261). -/
abbrev Name := List Char

/-! ## Numbers and names (R261) -/

/-- The value of a digit, hexadecimal digits included. -/
def digitValue (c : Char) : Option Nat :=
  let n := c.toNat
  if 48 ≤ n ∧ n ≤ 57 then some (n - 48)
  else if 97 ≤ n ∧ n ≤ 102 then some (n - 87)
  else if 65 ≤ n ∧ n ≤ 70 then some (n - 55)
  else none

/-- Digits in a base, most significant first; `acc` is the value of the digits before. -/
def digitsValue (base acc : Nat) : List Char → Option Nat
  | [] => some acc
  | c :: cs =>
    match digitValue c with
    | some d => if d < base then digitsValue base (base * acc + d) cs else none
    | none => none

/-- NUMBER (R261): `0x` hexadecimal, `0b` binary, a leading `0` octal, otherwise decimal. -/
def numberValue : List Char → Option Nat
  | '0' :: 'x' :: c :: cs => digitsValue 16 0 (c :: cs)
  | '0' :: 'b' :: c :: cs => digitsValue 2 0 (c :: cs)
  | '0' :: cs => digitsValue 8 0 cs
  | c :: cs => digitsValue 10 0 (c :: cs)
  | [] => none

/-- A character a NAMESTRING may begin with: a letter or one of `_ @ . -` (R261). -/
def nameStart (c : Char) : Bool :=
  let n := c.toNat
  (97 ≤ n && n ≤ 122) || (65 ≤ n && n ≤ 90) || c == '_' || c == '@' || c == '.' || c == '-'

/-- A NAMESTRING (R261): after the first character, digits are allowed too. -/
def isName : List Char → Bool
  | [] => false
  | c :: cs => nameStart c && cs.all fun d => nameStart d || (48 ≤ d.toNat && d.toNat ≤ 57)

/-! ## The grammar (R260) -/

/-- The unary operators. -/
inductive UnOp where
  | neg | compl
deriving DecidableEq, Repr

/-- The binary operators. -/
inductive BinOp where
  | add | sub | mul | div | bor | band | bxor | shl | shr
deriving DecidableEq, Repr

/-- A parse tree. `here` is `$`, `next` is `$$`. -/
inductive Expr where
  | num (n : Nat)
  | name (x : Name)
  | here
  | next
  | un (o : UnOp) (e : Expr)
  | bin (o : BinOp) (a b : Expr)
deriving DecidableEq, Repr

/-- A token of an expression. -/
inductive Token where
  | num (n : Nat)
  | name (x : Name)
  | here | next
  | plus | minus | star | slash | bar | amp | caret | shl | shr | tilde | lparen | rparen
deriving DecidableEq, Repr

/-- The token a spelling stands for: an operator, `$`, `$$`, a NUMBER or a NAMESTRING (R260 to R262). A `-` on its own
is the operator, though by R261 it is a NAMESTRING too (DESIGN CHOICE: log 33). -/
def tokenSpelled : List Char → Option Token
  | ['$'] => some .here
  | ['$', '$'] => some .next
  | ['+'] => some .plus
  | ['-'] => some .minus
  | ['*'] => some .star
  | ['/'] => some .slash
  | ['|'] => some .bar
  | ['&'] => some .amp
  | ['^'] => some .caret
  | ['<', '<'] => some .shl
  | ['>', '>'] => some .shr
  | ['~'] => some .tilde
  | ['('] => some .lparen
  | [')'] => some .rparen
  | x =>
    match numberValue x with
    | some n => some (.num n)
    | none => if isName x then some (.name x) else none

/-- The binary operator of a level of the grammar that stands at the head of the tokens: ADDEXPR is level 0,
MULEXPR 1, BITEXPR 2, SHEXPR 3 (R260). -/
def binOpAt : Nat → List Token → Option (BinOp × List Token)
  | 0, .plus :: ts => some (.add, ts)
  | 0, .minus :: ts => some (.sub, ts)
  | 1, .star :: ts => some (.mul, ts)
  | 1, .slash :: ts => some (.div, ts)
  | 2, .bar :: ts => some (.bor, ts)
  | 2, .amp :: ts => some (.band, ts)
  | 2, .caret :: ts => some (.bxor, ts)
  | 3, .shl :: ts => some (.shl, ts)
  | 3, .shr :: ts => some (.shr, ts)
  | _, _ => none

/-- Parse at a level of the grammar: 0 to 3 are the binary levels, each right-recursive on itself, 4 is UNARY,
5 is PRIMEXPR (R260; the undefined OREXPR read as BITEXPR, spec/90_conflicts.md C3). A name must be a NAMESTRING
(R261). The first argument bounds the depth. -/
def parseAt : Nat → Nat → List Token → Option (Expr × List Token)
  | 0, _, _ => none
  | fuel + 1, 5, ts =>
    match ts with
    | .num n :: rest => some (.num n, rest)
    | .name x :: rest => if isName x then some (.name x, rest) else none
    | .here :: rest => some (.here, rest)
    | .next :: rest => some (.next, rest)
    | .lparen :: rest =>
      match parseAt fuel 0 rest with
      | some (e, .rparen :: rest') => some (e, rest')
      | _ => none
    | _ => none
  | fuel + 1, 4, ts =>
    match ts with
    | .minus :: rest => (parseAt fuel 5 rest).map fun p => (.un .neg p.1, p.2)
    | .tilde :: rest => (parseAt fuel 5 rest).map fun p => (.un .compl p.1, p.2)
    | _ => parseAt fuel 5 ts
  | fuel + 1, level, ts =>
    match parseAt fuel (level + 1) ts with
    | none => none
    | some (a, rest) =>
      match binOpAt level rest with
      | none => some (a, rest)
      | some (o, rest') => (parseAt fuel level rest').map fun p => (.bin o a p.1, p.2)

/-- Parse a whole expression, "starting at ADDEXPR". -/
def parse (ts : List Token) : Option Expr :=
  match parseAt (8 * (ts.length + 1)) 0 ts with
  | some (e, []) => some e
  | _ => none

/-! ## Values -/

/-- What a name stands for: a label's address or an `.equ` value, the parse tree of a `.def`, or a symbol
resolved at link time (R246, R247). -/
inductive Binding where
  | value (v : Int)
  | tree (e : Expr)
  | imported
deriving DecidableEq, Repr

/-- Why an expression has no value at translation time. -/
inductive EvalError where
  /-- The name is not defined (R247). -/
  | unresolved (x : Name)
  /-- The name is imported: its value is known at link time only (R247). -/
  | atLinkTime (x : Name)
  /-- The `.def` trees nest deeper than the bound: a definition in terms of itself. -/
  | tooDeep
deriving DecidableEq, Repr

/-- The error of an expression both of whose operands have one. A name left to the linker hides no other error: every
name that is unresolved and not imported is reported (R247). -/
def EvalError.both : EvalError → EvalError → EvalError
  | .atLinkTime _, r => r
  | r, _ => r

/-- A unary operator on integers. -/
def UnOp.apply : UnOp → Int → Int
  | .neg, a => -a
  | .compl, a => -a - 1

/-- A binary operator on integers (R263). Division is stated only where it is exact, and shifts only of and by
numbers that are not negative; the rest are free values (log 33). -/
def BinOp.apply : BinOp → Int → Int → Int
  | .add, a, b => a + b
  | .sub, a, b => a - b
  | .mul, a, b => a * b
  | .div, a, b => if b ≠ 0 ∧ a % b = 0 then a / b else Config.asmQuotient a b
  | .bor, a, b => Int.lor a b
  | .band, a, b => Int.land a b
  | .bxor, a, b => Int.xor a b
  | .shl, a, b => if 0 ≤ b ∧ 0 ≤ a then a * 2 ^ b.toNat else Config.asmShiftLeft a b
  | .shr, a, b => if 0 ≤ b ∧ 0 ≤ a then a / 2 ^ b.toNat else Config.asmShiftRight a b

/-- The value of an expression: `env` is what names stand for, `here` and `next` what `$` and `$$` are (R262). A
`.def` name is evaluated after its tree is inserted, so `$` in it is the place of use (R246). The first
argument bounds the depth. -/
def eval : Nat → (Name → Option Binding) → Int → Int → Expr → Except EvalError Int
  | 0, _, _, _, _ => .error .tooDeep
  | fuel + 1, env, here, next, e =>
    match e with
    | .num n => .ok n
    | .here => .ok here
    | .next => .ok next
    | .name x =>
      match env x with
      | some (.value v) => .ok v
      | some (.tree t) => eval fuel env here next t
      | some .imported => .error (.atLinkTime x)
      | none => .error (.unresolved x)
    | .un o a =>
      match eval fuel env here next a with
      | .ok v => .ok (o.apply v)
      | .error r => .error r
    | .bin o a b =>
      match eval fuel env here next a, eval fuel env here next b with
      | .ok v, .ok w => .ok (o.apply v w)
      | .error r, .ok _ => .error r
      | .ok _, .error r => .error r
      | .error r, .error q => .error (r.both q)

/-- The word an expression's value is assembled to: the value modulo 65536 (R263, the spec's decision D32). -/
def toWord (v : Int) : Word := BitVec.ofInt 16 v

end Sys2Proof.Asm
end

