-- ==== Sys2Proof/Machine/Assembler.lean ====
section
/-! DEFINITION. The assembler (spec/47_assembler.md): operand shapes and the selection of a hardware form
(R241 to R243), `$SP` (R244), directives and labels (R245 to R250), and the pseudo-instructions (R251 to R259).
A tool, no part of the CPU (R240): functions from source lines to words. -/

namespace Sys2Proof.Asm

/-! ## Operands and mnemonics -/

/-- A register operand: `$R0`..`$R7` or the pseudo register `$SP` (R241, R244). -/
inductive AsmReg where
  | gp (r : Reg)
  | sp
deriving DecidableEq, Repr

/-- A flag letter (R241). -/
inductive FlagLetter where
  | c | z | s | i
deriving DecidableEq, Repr

/-- The operand shapes of R241, over registers `ρ` and immediates `ι`. The I/O shapes are the ones in braces. -/
inductive Operand (ρ ι : Type) where
  | reg (r : ρ)
  | imm (e : ι)
  | ind (r : ρ)
  | abs (e : ι)
  | disp (r : ρ) (e : ι)
  | postInc (r : ρ)
  | postDec (r : ρ)
  | preInc (r : ρ)
  | ioReg (r : ρ)
  | ioImm (e : ι)
  | sw
  | flag (f : FlagLetter)
  /-- The operand of `HOP label`, as opposed to `HOP imm` (R253; which of the two a bare name is, the source does
  not say: log 33). -/
  | label (e : ι)
deriving DecidableEq, Repr

/-- An operand as written. -/
abbrev SrcOperand := Operand AsmReg Expr

/-- An operand with its register and the exact value of its expression known. -/
abbrev HwOperand := Operand Reg Int

/-- The mnemonics: those of the instruction table (spec/30_encoding.md R92), then the pseudo-instructions. -/
inductive Mnemonic where
  | mov | mvl | mvh | nul | mkw | add | adc | ass | sub | sbc | inc | dec | shl | rol | shr | ror | not | neg
  | anl | orl | xor | sfl | sex | tmc | cmp | tst
  | nop | ret | jmp | hop | set | clr | bit | psh | pop | nay | yay
deriving DecidableEq, Repr

/-! ## The selection of the form (R242) -/

/-- A number 0 to 7 as the flag index of SFL (R241, spec/30_encoding.md R88). Any other number is no index: it is not
reduced to one. -/
def flagIndexOfValue (v : Int) : Option FlagIndex :=
  if 0 ≤ v ∧ v < 8 then some (FlagIndex.ofBits (BitVec.ofInt 3 v)) else none

/-- The hardware form a mnemonic and its operand shapes select, destination first; none for shapes that have no
row (R242). An immediate word is the value modulo 65536 (R263), and SFL's index is the value itself (R241). Unused
fields are 0 (spec/30_encoding.md R94), and a bare `TMC` has src = 0 (the spec's decision D25: log 32). -/
def selectForm (m : CondMode) : Mnemonic → List HwOperand → Option Instr
  | .mov, [.reg d, .reg s] => some (.movRegReg m d s)
  | .mov, [.reg d, .imm i] => some (.movRegImm m d .r0 (toWord i))
  | .mov, [.reg d, .ind s] => some (.movRegInd m d s)
  | .mov, [.reg d, .abs i] => some (.movRegAbs m d .r0 (toWord i))
  | .mov, [.ind d, .reg s] => some (.movIndReg m d s)
  | .mov, [.ind d, .imm i] => some (.movIndImm m d .r0 (toWord i))
  | .mov, [.ind d, .ind s] => some (.movIndInd m d s)
  | .mov, [.ind d, .abs i] => some (.movIndAbs m d .r0 (toWord i))
  | .mov, [.abs i, .reg s] => some (.movAbsReg m .r0 s (toWord i))
  | .mov, [.abs i, .ind s] => some (.movAbsInd m .r0 s (toWord i))
  | .mov, [.reg d, .postInc s] => some (.movRegPostInc m d s)
  | .mov, [.postInc d, .reg s] => some (.movPostIncReg m d s)
  | .mov, [.reg d, .disp s i] => some (.movRegDisp m d s (toWord i))
  | .mov, [.ind d, .disp s i] => some (.movIndDisp m d s (toWord i))
  | .mov, [.disp d i, .reg s] => some (.movDispReg m d s (toWord i))
  | .mov, [.disp d i, .ind s] => some (.movDispInd m d s (toWord i))
  | .mov, [.reg d, .sw] => some (.movRegSw m d .r0)
  | .mov, [.abs i, .sw] => some (.movAbsSw m .r0 .r0 (toWord i))
  | .mov, [.sw, .reg d] => some (.movSwReg m d .r0)
  | .mov, [.sw, .imm i] => some (.movSwImm m .r0 .r0 (toWord i))
  | .mov, [.postDec d, .reg s] => some (.movPostDecReg m d s)
  | .mov, [.postDec d, .imm i] => some (.movPostDecImm m d .r0 (toWord i))
  | .mov, [.postDec d, .sw] => some (.movPostDecSw m d .r0)
  | .mov, [.reg d, .preInc s] => some (.movRegPreInc m d s)
  | .mov, [.sw, .preInc s] => some (.movSwPreInc m .r0 s)
  | .mov, [.ioImm i, .reg s] => some (.outAbsReg m .r0 s (toWord i))
  | .mov, [.ioReg d, .reg s] => some (.outIndReg m d s)
  | .mov, [.ioReg d, .imm i] => some (.outIndImm m d .r0 (toWord i))
  | .mov, [.reg d, .ioReg s] => some (.inRegInd m d s)
  | .mov, [.reg d, .ioImm i] => some (.inRegAbs m d .r0 (toWord i))
  | .mvl, [.reg d, .reg s] => some (.mvl m d s)
  | .mvh, [.reg d, .reg s] => some (.mvh m d s)
  | .nul, [.reg d] => some (.nul m d .r0)
  | .mkw, [.reg d, .reg s] => some (.mkw m d s)
  | .add, [.reg d, .reg s] => some (.addReg m d s)
  | .add, [.reg d, .imm i] => some (.addImm m d .r0 (toWord i))
  | .adc, [.reg d, .reg s] => some (.adcReg m d s)
  | .adc, [.reg d, .imm i] => some (.adcImm m d .r0 (toWord i))
  | .ass, [.reg d, .reg s] => some (.assReg m d s)
  | .ass, [.reg d, .imm i] => some (.assImm m d .r0 (toWord i))
  | .sub, [.reg d, .reg s] => some (.subReg m d s)
  | .sbc, [.reg d, .reg s] => some (.sbcReg m d s)
  | .inc, [.reg d, .reg s] => some (.incReg m d s)
  | .dec, [.reg d, .reg s] => some (.decReg m d s)
  | .shl, [.reg d, .reg s] => some (.shlReg m d s)
  | .rol, [.reg d, .reg s] => some (.rolReg m d s)
  | .shr, [.reg d, .reg s] => some (.shrReg m d s)
  | .ror, [.reg d, .reg s] => some (.rorReg m d s)
  | .not, [.reg d, .reg s] => some (.notReg m d s)
  | .neg, [.reg d, .reg s] => some (.negReg m d s)
  | .anl, [.reg d, .reg s] => some (.anlReg m d s)
  | .anl, [.reg d, .imm i] => some (.anlImm m d .r0 (toWord i))
  | .orl, [.reg d, .reg s] => some (.orlReg m d s)
  | .orl, [.reg d, .imm i] => some (.orlImm m d .r0 (toWord i))
  | .xor, [.reg d, .reg s] => some (.xorReg m d s)
  | .xor, [.reg d, .imm i] => some (.xorImm m d .r0 (toWord i))
  | .sfl, [.imm i] => (flagIndexOfValue i).map fun x => .sfl m x .r0
  | .sex, [.reg d, .reg s] => some (.sexReg m d s)
  | .sex, [.reg d, .imm i] => some (.sexImm m d .r0 (toWord i))
  | .tmc, [] => some (.tmcReg m .r0 .r0)
  | .tmc, [.reg s] => some (.tmcReg m .r0 s)
  | .tmc, [.imm i] => some (.tmcImm m .r0 .r0 (toWord i))
  | .cmp, [.reg d, .reg s] => some (.cmpReg m d s)
  | .cmp, [.reg d, .imm i] => some (.cmpImm m d .r0 (toWord i))
  | .tst, [.reg d, .reg s] => some (.tstReg m d s)
  | .tst, [.reg d, .imm i] => some (.tstImm m d .r0 (toWord i))
  | _, _ => none

/-! ## Pseudo-instructions (R251 to R259) -/

/-- R7 as an operand. -/
abbrev pcReg : AsmReg := .gp .r7

/-- The SFL index of a flag letter: to clear it, or to set it (R259). -/
def flagLetterIndex (f : FlagLetter) (value : Bool) : Nat :=
  (match f with | .c => 0 | .z => 1 | .s => 2 | .i => 3) + (if value then 4 else 0)

/-- `(1<<imm)` (R256). -/
def bitMask (e : Expr) : Expr := .bin .shl (.num 1) e

/-- The mnemonics with a one-operand spelling `op reg` for `op reg, reg` (R255). -/
def hasOneOperandSpelling : Mnemonic → Bool
  | .inc | .dec | .shl | .rol | .shr | .ror | .not | .neg => true
  | _ => false

/-- The expansion of a pseudo-instruction; any other line stays as it is. -/
def expand : Mnemonic → List SrcOperand → Mnemonic × List SrcOperand
  -- R251, R252
  | .nop, [] => (.mov, [.reg (.gp .r0), .reg (.gp .r0)])
  | .sex, [.reg r] => (.sex, [.reg .sp, .reg r])
  | .sex, [.imm e] => (.sex, [.reg .sp, .imm e])
  | .ret, [.reg r] => (.mov, [.reg pcReg, .preInc r])
  | .ret, [] => (.mov, [.reg pcReg, .preInc .sp])
  -- R253
  | .jmp, [.reg r] => (.mov, [.reg pcReg, .reg r])
  | .jmp, [.ind r] => (.mov, [.reg pcReg, .ind r])
  | .jmp, [.imm e] => (.mov, [.reg pcReg, .imm e])
  | .jmp, [.abs e] => (.mov, [.reg pcReg, .abs e])
  | .jmp, [.disp r e] => (.mov, [.reg pcReg, .disp r e])
  | .hop, [.reg r] => (.ass, [.reg pcReg, .reg r])
  | .hop, [.imm e] => (.ass, [.reg pcReg, .imm e])
  | .hop, [.label e] => (.ass, [.reg pcReg, .imm (.bin .sub e .next)])
  -- R254
  | .sub, [.reg d, .imm e] => (.add, [.reg d, .imm (.un .neg e)])
  | .sbc, [.reg d, .imm e] => (.adc, [.reg d, .imm (.un .compl e)])
  -- R256
  | .set, [.reg r, .imm e] => (.orl, [.reg r, .imm (bitMask e)])
  | .clr, [.reg r, .imm e] => (.anl, [.reg r, .imm (.un .compl (bitMask e))])
  | .bit, [.reg r, .imm e] => (.tst, [.reg r, .imm (bitMask e)])
  -- R257
  | .psh, [.reg d, .reg s] => (.mov, [.postDec d, .reg s])
  | .psh, [.reg d, .imm e] => (.mov, [.postDec d, .imm e])
  | .psh, [.reg d, .sw] => (.mov, [.postDec d, .sw])
  | .psh, [.reg s] => (.mov, [.postDec .sp, .reg s])
  | .psh, [.imm e] => (.mov, [.postDec .sp, .imm e])
  | .psh, [.sw] => (.mov, [.postDec .sp, .sw])
  -- R258
  | .pop, [.reg d, .reg s] => (.mov, [.reg d, .preInc s])
  | .pop, [.sw, .reg s] => (.mov, [.sw, .preInc s])
  | .pop, [.reg d] => (.mov, [.reg d, .preInc .sp])
  | .pop, [.sw] => (.mov, [.sw, .preInc .sp])
  -- R259
  | .nay, [.flag f] => (.sfl, [.imm (.num (flagLetterIndex f false))])
  | .yay, [.flag f] => (.sfl, [.imm (.num (flagLetterIndex f true))])
  -- R255
  | mn, [.reg r] => if hasOneOperandSpelling mn then (mn, [.reg r, .reg r]) else (mn, [.reg r])
  | mn, ops => (mn, ops)

/-! ## Lines, labels and directives -/

/-- The sections of R248. -/
inductive Section where
  | text | data
deriving DecidableEq, Repr

/-- A line of source: an instruction with its condition prefix (R243), a label, or a directive. -/
inductive Line where
  | instr (m : CondMode) (mn : Mnemonic) (ops : List SrcOperand)
  /-- `<name> ':'` (R250). -/
  | labelDef (x : Name)
  /-- `.org` (R245). -/
  | org (e : Expr)
  /-- `.def` (R246). -/
  | define (x : Name) (e : Expr)
  /-- `.equ` (R246). -/
  | equ (x : Name) (e : Expr)
  /-- `.imp` (R247). -/
  | imp (x : Name)
  /-- `.exp` (R247). -/
  | exp (x : Name)
  /-- `.txt` (R248). -/
  | txt
  /-- `.dat` (R248). -/
  | dat
  /-- `.dmw` (R249). -/
  | dmw (e : Expr)
  /-- `.usr` (R244). -/
  | usr
  /-- `.sys` (R244). -/
  | sys
  /-- `.psh` (R250). -/
  | psh
  /-- `.pop` (R250). -/
  | pop
deriving DecidableEq, Repr

/-- Why a source is not assembled. -/
inductive AsmError where
  /-- The shapes select no instruction (R242). -/
  | noSuchForm (mn : Mnemonic)
  /-- An expression has no value. -/
  | badExpression (r : EvalError)
  /-- A defined name that is no NAMESTRING (R261). -/
  | badName (x : Name)
  /-- `.pop` without `.psh`: the source does not say what happens (log 36). -/
  | noScope
  /-- An exported name is no label where its `.exp` stands (R247). -/
  | notExported (x : Name)
  /-- The values of labels and `.equ` names depend on one another in a circle (log 36). -/
  | unstable
deriving DecidableEq, Repr

/-- A word of output: known, or left to the linker because its expression names an imported symbol (R247). -/
inductive Emitted where
  | word (w : Word)
  | atLinkTime (e : Expr)
deriving DecidableEq, Repr

/-- A label in the scope it was defined in. -/
structure LabelEntry where
  scope : Nat
  name : Name
  addr : Word
deriving DecidableEq, Repr

/-- What is known of names: labels, and `.def`, `.equ` and `.imp` names. -/
structure Symbols where
  labels : List LabelEntry
  bindings : List (Name × Binding)
deriving DecidableEq, Repr

/-- The state of the assembler between two lines. `addr` is the address of the next word to be emitted (R245), and
`pending` are the labels, with their scopes, that wait for that word (R250). -/
structure AsmState where
  addr : Word
  pending : List (Nat × Name)
  userSp : Bool
  sect : Option Section
  scopes : List Nat
  nextScope : Nat
  found : Symbols
  exported : List (Name × Word)
  out : List (Word × Option Section × Emitted)
deriving DecidableEq, Repr

/-- `$SP` is R5 under `.usr` and R6 under `.sys` (R244). -/
def AsmReg.resolve (userSp : Bool) : AsmReg → Reg
  | .gp r => r
  | .sp => if userSp then .r5 else .r6

/-- The label of a name, from the innermost open scope outwards. R250 lets a label of an outer scope be used and gives
no precedence: that the inner of two labels of one name counts, in all of its scope and so above its definition too, is
a DESIGN CHOICE (log 36). In each scope the labels already placed in this pass (`now`) come before those of the pass
before (`known`). -/
def lookupLabel (now known : List LabelEntry) : List Nat → Name → Option Word
  | [], _ => none
  | sc :: rest, x =>
    match (now ++ known).find? fun l => l.scope == sc && l.name == x with
    | some l => some l.addr
    | none => lookupLabel now known rest x

/-- What a name stands for: a label of an open scope, or else a `.def`, `.equ` or `.imp` name, the latest one above the
line, or else one below it (log 36). -/
def lookupName (now known : Symbols) (scopes : List Nat) (x : Name) : Option Binding :=
  match lookupLabel now.labels known.labels scopes x with
  | some a => some (.value a.toNat)
  | none => ((now.bindings ++ known.bindings).find? fun b => b.1 == x).map (·.2)

/-- The bound on the depth of an expression with its `.def` trees inserted. -/
def evalFuel : Nat := 1000

/-- The value of an expression in a pass. -/
def AsmState.value (known : Symbols) (p : AsmState) (here next : Int) (e : Expr) : Except EvalError Int :=
  eval evalFuel (lookupName p.found known p.scopes) here next e

/-- The value of an expression in a directive, where `$` and `$$` are free values (log 33). -/
def AsmState.directiveValue (known : Symbols) (p : AsmState) (e : Expr) : Except EvalError Int :=
  p.value known (Config.asmHere p.addr) (Config.asmNext p.addr) e

/-- The immediate expression of an operand list, if any: a form has at most one. -/
def immExpr : List SrcOperand → Option Expr
  | [] => none
  | .imm e :: _ | .abs e :: _ | .disp _ e :: _ | .ioImm e :: _ | .label e :: _ => some e
  | _ :: ops => immExpr ops

/-- An operand with its register resolved and its expression replaced by a value. -/
def Operand.resolve (userSp : Bool) (v : Int) : SrcOperand → HwOperand
  | .reg r => .reg (r.resolve userSp)
  | .imm _ => .imm v
  | .ind r => .ind (r.resolve userSp)
  | .abs _ => .abs v
  | .disp r _ => .disp (r.resolve userSp) v
  | .postInc r => .postInc (r.resolve userSp)
  | .postDec r => .postDec (r.resolve userSp)
  | .preInc r => .preInc (r.resolve userSp)
  | .ioReg r => .ioReg (r.resolve userSp)
  | .ioImm _ => .ioImm v
  | .sw => .sw
  | .flag f => .flag f
  | .label _ => .label v

/-- One line of assembly, expanded, with the value of its expression given, as a hardware instruction. -/
def assembleWith (userSp : Bool) (m : CondMode) (mn : Mnemonic) (ops : List SrcOperand) (v : Int) :
    Option Instr :=
  let x := expand mn ops
  selectForm m x.1 (x.2.map (Operand.resolve userSp v))

/-- Give the labels that wait the address of the next emitted word (R250). -/
def AsmState.place (p : AsmState) : AsmState :=
  { p with
    pending := []
    found := { p.found with labels := p.found.labels ++ p.pending.map fun l => ⟨l.1, l.2, p.addr⟩ } }

/-- Emit one word: it stands at the address reached, and the labels that wait take that address. -/
def AsmState.emit (p : AsmState) (w : Emitted) : AsmState :=
  let q := p.place
  { q with addr := q.addr + 1, out := q.out ++ [(q.addr, q.sect, w)] }

/-- Bind a name that is no label, if it is a NAMESTRING (R246, R247, R261). -/
def AsmState.bind (p : AsmState) (x : Name) (b : Binding) : Except AsmError AsmState :=
  if isName x then .ok { p with found := { p.found with bindings := (x, b) :: p.found.bindings } }
  else .error (.badName x)

/-- What a directive does with the value of its expression, which it needs at translation time. In a pass that is not
the last it waits for a name that is not known yet. -/
def AsmState.withValue (final : Bool) (known : Symbols) (p : AsmState) (e : Expr)
    (f : Int → Except AsmError AsmState) : Except AsmError AsmState :=
  match p.directiveValue known e with
  | .ok v => f v
  | .error r => if final then .error (.badExpression r) else .ok p

/-- The words of one instruction line, for which `shape` has been selected. In a pass that is not the last only their
number counts. In the last, an expression that names an imported symbol is left to the linker (R247), which no form
without an immediate word allows. `$$` is the address after the whole instruction (R262). -/
def instrWords (final : Bool) (known : Symbols) (p : AsmState) (m : CondMode) (mn : Mnemonic)
    (ops : List SrcOperand) (shape : Instr) : Except AsmError (List Emitted) :=
  match final, immExpr (expand mn ops).2 with
  | true, some e =>
    match p.value known p.addr.toNat (p.addr + BitVec.ofNat 16 shape.length).toNat e with
    | .ok v =>
      match assembleWith p.userSp m mn ops v with
      | some i => .ok ((encode i).map .word)
      | none => .error (.noSuchForm mn)
    | .error (.atLinkTime x) =>
      if (fieldsOf shape).hasImm then .ok [.word (encodeWord shape), .atLinkTime e]
      else .error (.badExpression (.atLinkTime x))
    | .error r => .error (.badExpression r)
  | _, _ => .ok ((encode shape).map .word)

/-- One instruction line. Which form it is, and so its length, follows from its shapes alone, before its expression
has a value (R242, spec/30_encoding.md R82). -/
def instrLine (final : Bool) (known : Symbols) (p : AsmState) (m : CondMode) (mn : Mnemonic)
    (ops : List SrcOperand) : Except AsmError AsmState :=
  match assembleWith p.userSp m mn ops 0 with
  | none => .error (.noSuchForm mn)
  | some shape =>
    match instrWords final known p.place m mn ops shape with
    | .ok ws => .ok (ws.foldl AsmState.emit p.place)
    | .error r => .error r

/-- The word of a `.dmw` line (R249). -/
def dumpedWord (final : Bool) (known : Symbols) (p : AsmState) (e : Expr) : Except AsmError Emitted :=
  match final, p.directiveValue known e with
  | _, .ok v => .ok (.word (toWord v))
  | true, .error (.atLinkTime _) => .ok (.atLinkTime e)
  | true, .error r => .error (.badExpression r)
  | false, .error _ => .ok (.word 0)

/-- One line. `final` is whether every name must have a value. A label takes the address of the next emitted word, also
where an `.org` stands between the two (R250). `.org` emits no padding: it only moves the address, and each word of the
output carries its own (DESIGN CHOICE: whether the output is padded is not in the source, R245; log 36). `.exp` takes
the label of that name where it stands (R247). -/
def passLine (final : Bool) (known : Symbols) (p : AsmState) : Line → Except AsmError AsmState
  | .instr m mn ops => instrLine final known p m mn ops
  | .labelDef x =>
    if isName x then .ok { p with pending := p.pending ++ [(p.scopes.headD 0, x)] } else .error (.badName x)
  | .org e => p.withValue final known e fun v => .ok { p with addr := toWord v }
  | .define x e => p.bind x (.tree e)
  | .equ x e => p.withValue final known e fun v => p.bind x (.value v)
  | .imp x => p.bind x .imported
  | .exp x =>
    match lookupLabel p.found.labels known.labels p.scopes x with
    | some a => .ok { p with exported := p.exported ++ [(x, a)] }
    | none => if final then .error (.notExported x) else .ok p
  | .txt => .ok { p with sect := some .text }
  | .dat => .ok { p with sect := some .data }
  | .dmw e =>
    match dumpedWord final known p.place e with
    | .ok w => .ok (p.emit w)
    | .error r => .error r
  | .usr => .ok { p with userSp := true }
  | .sys => .ok { p with userSp := false }
  | .psh => .ok { p with scopes := p.nextScope :: p.scopes, nextScope := p.nextScope + 1 }
  | .pop =>
    match p.scopes with
    | _ :: sc :: rest => .ok { p with scopes := sc :: rest }
    | _ => .error .noScope

/-- All the lines, in order. A label after the last word takes the address reached (DESIGN CHOICE: log 36). -/
def passLines (final : Bool) (known : Symbols) : AsmState → List Line → Except AsmError AsmState
  | p, [] => .ok p.place
  | p, l :: ls =>
    match passLine final known p l with
    | .ok q => passLines final known q ls
    | .error r => .error r

/-- The assembler before the first line. Where assembly starts, and whether `.usr` or `.sys` is in force there,
are not in the source, so both are arguments (log 33). -/
def AsmState.start (base : Word) (userSp : Bool) : AsmState where
  addr := base
  pending := []
  userSp := userSp
  sect := none
  scopes := [0]
  nextScope := 1
  found := ⟨[], []⟩
  exported := []
  out := []

/-- Pass after pass, each knowing the names of the one before, until a pass finds what it was given: then every name
has the value its own definition gives it. -/
def settle (start : AsmState) (ls : List Line) : Nat → Symbols → Except AsmError Symbols
  | 0, _ => .error .unstable
  | fuel + 1, known =>
    match passLines false known start ls with
    | .error r => .error r
    | .ok p => if p.found = known then .ok known else settle start ls fuel p.found

/-- What assembling gives: each word with its address and section, and the exported labels with their values. -/
structure Program where
  words : List (Word × Option Section × Emitted)
  exports : List (Name × Word)
deriving DecidableEq, Repr

/-- Assemble: find what every name stands for, then make the words with it; now a name that has no value is an error
(R247). Each pass settles at least one more line, so that only names defined in a circle need more passes than there
are lines. -/
def assemble (base : Word) (userSp : Bool) (ls : List Line) : Except AsmError Program :=
  match settle (AsmState.start base userSp) ls (ls.length + 2) ⟨[], []⟩ with
  | .error r => .error r
  | .ok known =>
    match passLines true known (AsmState.start base userSp) ls with
    | .error r => .error r
    | .ok p => .ok ⟨p.out, p.exported⟩

end Sys2Proof.Asm
end

