-- ==== Sys2Proof/Machine/AsmText.lean ====
section
/-! DEFINITION. The assembler's spellings (spec/47_assembler.md R241, R243, R244, R253; spec/10_state.md R22): the names
of registers, prefixes, mnemonics and directives, and the operand shapes, read from the tokens of one operand. How a
line of text is cut into tokens, and whether case matters, are not in the source (log 33). -/

namespace Sys2Proof.Asm

/-! ## Names -/

/-- The register a number names (spec/10_state.md R21). -/
def regOfNumber : Nat → Option Reg
  | 0 => some .r0 | 1 => some .r1 | 2 => some .r2 | 3 => some .r3
  | 4 => some .r4 | 5 => some .r5 | 6 => some .r6 | 7 => some .r7
  | _ => none

/-- `$R0` to `$R7` and `$SP` (spec/10_state.md R22, R244). -/
def registerNamed : Name → Option AsmReg
  | ['$', 'R', d] => (digitValue d).bind fun n => (regOfNumber n).map .gp
  | ['$', 'S', 'P'] => some .sp
  | _ => none

/-- `$SW` (spec/10_state.md R22). -/
def isStatusWordName (x : Name) : Bool := x == ['$', 'S', 'W']

/-- The condition prefixes, without the period (R243); no prefix is mode 0. -/
def prefixNamed : Name → Option CondMode
  | ['N', 'C'] => some .nc
  | ['N', 'Z'] => some .nz
  | ['N', 'S'] => some .ns
  | ['N', 'X'] => some .never
  | ['C'] => some .c
  | ['Z'] => some .z
  | ['S'] => some .s
  | _ => none

/-- The flag letters of NAY and YAY (R241, R259). -/
def flagNamed : Name → Option FlagLetter
  | ['C'] => some .c
  | ['Z'] => some .z
  | ['S'] => some .s
  | ['I'] => some .i
  | _ => none

/-- The mnemonics of the instruction table (spec/30_encoding.md R92) and of the pseudo-instructions (R251 to R259). -/
def mnemonicNamed : Name → Option Mnemonic
  | ['M', 'O', 'V'] => some .mov | ['M', 'V', 'L'] => some .mvl | ['M', 'V', 'H'] => some .mvh
  | ['N', 'U', 'L'] => some .nul | ['M', 'K', 'W'] => some .mkw | ['A', 'D', 'D'] => some .add
  | ['A', 'D', 'C'] => some .adc | ['A', 'S', 'S'] => some .ass | ['S', 'U', 'B'] => some .sub
  | ['S', 'B', 'C'] => some .sbc | ['I', 'N', 'C'] => some .inc | ['D', 'E', 'C'] => some .dec
  | ['S', 'H', 'L'] => some .shl | ['R', 'O', 'L'] => some .rol | ['S', 'H', 'R'] => some .shr
  | ['R', 'O', 'R'] => some .ror | ['N', 'O', 'T'] => some .not | ['N', 'E', 'G'] => some .neg
  | ['A', 'N', 'L'] => some .anl | ['O', 'R', 'L'] => some .orl | ['X', 'O', 'R'] => some .xor
  | ['S', 'F', 'L'] => some .sfl | ['S', 'E', 'X'] => some .sex | ['T', 'M', 'C'] => some .tmc
  | ['C', 'M', 'P'] => some .cmp | ['T', 'S', 'T'] => some .tst | ['N', 'O', 'P'] => some .nop
  | ['R', 'E', 'T'] => some .ret | ['J', 'M', 'P'] => some .jmp | ['H', 'O', 'P'] => some .hop
  | ['S', 'E', 'T'] => some .set | ['C', 'L', 'R'] => some .clr | ['B', 'I', 'T'] => some .bit
  | ['P', 'S', 'H'] => some .psh | ['P', 'O', 'P'] => some .pop | ['N', 'A', 'Y'] => some .nay
  | ['Y', 'A', 'Y'] => some .yay
  | _ => none

/-! ## Operands (R241) -/

/-- A token of an operand: one of an expression, a register, `$SW`, a bracket, a brace, `++` or `--`. -/
inductive OpToken where
  | expr (t : Token)
  | reg (r : AsmReg)
  | sw
  | plusPlus | minusMinus
  | lbracket | rbracket
  | lbrace | rbrace
deriving DecidableEq, Repr

/-- The operand token a spelling stands for. In an operand `--` is the decrement mark of R241, though by R261 it is a
NAMESTRING too; in a directive, in a label definition and in a directive's expression it is the name (DESIGN CHOICE:
log 33). -/
def opTokenSpelled : List Char → Option OpToken
  | ['['] => some .lbracket
  | [']'] => some .rbracket
  | [c] =>
    if c.toNat = 123 then some .lbrace
    else if c.toNat = 125 then some .rbrace
    else (tokenSpelled [c]).map .expr
  | ['+', '+'] => some .plusPlus
  | ['-', '-'] => some .minusMinus
  | x =>
    if isStatusWordName x then some .sw
    else
      match registerNamed x with
      | some r => some (.reg r)
      | none => (tokenSpelled x).map .expr

/-- Expression tokens up to a closing token, which is the last one. -/
def tokensUntil (close : OpToken) : List OpToken → Option (List Token)
  | [] => none
  | [t] => if t = close then some [] else none
  | .expr t :: rest => (tokensUntil close rest).map (t :: ·)
  | _ => none

/-- Expression tokens and nothing else. -/
def exprTokens : List OpToken → Option (List Token)
  | [] => some []
  | .expr t :: rest => (exprTokens rest).map (t :: ·)
  | _ => none

/-- The operand a list of tokens spells (R241). -/
def parseOperand : List OpToken → Option SrcOperand
  | [.reg r] => some (.reg r)
  | [.sw] => some .sw
  | [.lbracket, .reg r, .rbracket] => some (.ind r)
  | [.lbracket, .reg r, .plusPlus, .rbracket] => some (.postInc r)
  | [.lbracket, .reg r, .minusMinus, .rbracket] => some (.postDec r)
  | [.lbracket, .plusPlus, .reg r, .rbracket] => some (.preInc r)
  | .lbracket :: .reg r :: .expr .plus :: rest => ((tokensUntil .rbracket rest).bind parse).map (.disp r)
  | .lbracket :: rest => ((tokensUntil .rbracket rest).bind parse).map .abs
  | [.lbrace, .reg r, .rbrace] => some (.ioReg r)
  | .lbrace :: rest => ((tokensUntil .rbrace rest).bind parse).map .ioImm
  | ts => ((exprTokens ts).bind parse).map .imm

/-- An operand of a given mnemonic: NAY and YAY take a flag letter (R259), and a bare name after HOP is taken as a
label (R253; the source does not say how the two are told apart: log 33). -/
def parseOperandOf (mn : Mnemonic) (ts : List OpToken) : Option SrcOperand :=
  match mn, ts with
  | .nay, [.expr (.name x)] => (flagNamed x).map .flag
  | .yay, [.expr (.name x)] => (flagNamed x).map .flag
  | .hop, [.expr (.name x)] => some (.label (.name x))
  | _, _ => parseOperand ts

/-- Each spelling of a list read by `f`, or none if `f` refuses one. -/
def readAll {α β : Type} (f : α → Option β) : List α → Option (List β)
  | [] => some []
  | x :: xs =>
    match f x, readAll f xs with
    | some y, some ys => some (y :: ys)
    | _, _ => none

/-- All the operands of an instruction, destination first, each as the spellings of its tokens. -/
def parseOperands (mn : Mnemonic) (ops : List (List (List Char))) : Option (List SrcOperand) :=
  readAll (fun xs => (readAll opTokenSpelled xs).bind (parseOperandOf mn)) ops

/-- An instruction line: an optional prefix, a mnemonic, and the spelled tokens of each operand (R241, R243). -/
def parseInstr (pre : Option Name) (mn : Name) (ops : List (List (List Char))) : Option Line :=
  let mode : Option CondMode := match pre with | none => some .always | some p => prefixNamed p
  match mode, mnemonicNamed mn with
  | some m, some k => (parseOperands k ops).map (.instr m k)
  | _, _ => none

/-! ## Labels and directives (R244 to R250) -/

/-- A name, if it is a NAMESTRING (R261). -/
def checkedName (x : Name) : Option Name := if isName x then some x else none

/-- A label definition, without the colon (R250). -/
def parseLabel (x : Name) : Option Line := (checkedName x).map .labelDef

/-- An expression from the spellings of its tokens. -/
def parseSpelled (xs : List (List Char)) : Option Expr := (readAll tokenSpelled xs).bind parse

/-- A directive line: its name, without the period, and the spellings of what follows: the name it takes, if it takes
one, and the tokens of its expression. -/
def parseDirective : Name → List (List Char) → Option Line
  | ['o', 'r', 'g'], xs => (parseSpelled xs).map .org
  | ['d', 'e', 'f'], n :: xs => (checkedName n).bind fun n => (parseSpelled xs).map (.define n)
  | ['e', 'q', 'u'], n :: xs => (checkedName n).bind fun n => (parseSpelled xs).map (.equ n)
  | ['i', 'm', 'p'], [n] => (checkedName n).map .imp
  | ['e', 'x', 'p'], [n] => (checkedName n).map .exp
  | ['t', 'x', 't'], [] => some .txt
  | ['d', 'a', 't'], [] => some .dat
  | ['d', 'm', 'w'], xs => (parseSpelled xs).map .dmw
  | ['u', 's', 'r'], [] => some .usr
  | ['s', 'y', 's'], [] => some .sys
  | ['p', 's', 'h'], [] => some .psh
  | ['p', 'o', 'p'], [] => some .pop
  | _, _ => none

end Sys2Proof.Asm
end

