-- ==== Sys2Proof/Safety.lean ====
section
/-! DEFINITION. The terms in which claims are stated: the invariant of the machine, the privileged and the
unused instructions, what an instruction may change, what an entry leaves, and a run that has ended. -/

namespace Sys2Proof.Machine

/-! ## The invariant -/

/-- SW bits 7:6 are zero (spec/10_state.md R33, spec/30_encoding.md R97). -/
def State.reservedClear (s : State) : Prop := s.sw.getLsbD 6 = false ∧ s.sw.getLsbD 7 = false

/-- The invariant of every reachable state: the memory is in canonical form and the reserved bits of SW are
zero. -/
def State.Inv (s : State) : Prop := s.mem.wf = true ∧ s.reservedClear

/-! ## Classes of instructions -/

/-- One of the 63 unused (opcode, I) pairs, by the two lists of spec/30_encoding.md R95: 13 opcodes unused
with I = 1, and every opcode from 0x27 up. -/
def unusedPair (op : BitVec 6) (hasImm : Bool) : Bool :=
  decide (0x27 ≤ op.toNat)
    || hasImm && ([0x0E, 0x0F, 0x13, 0x14, 0x15, 0x16, 0x17, 0x18, 0x19, 0x1A, 0x1B, 0x1C, 0x20] : List Nat).contains
      op.toNat

/-- The instruction is an unused pair. -/
def isUnused (i : Instr) : Bool := unusedPair (fieldsOf i).op (fieldsOf i).hasImm

/-- The five I/O forms (spec/46_io.md R226). -/
def isIo : Instr → Bool
  | .outAbsReg .. | .outIndReg .. | .outIndImm .. | .inRegInd .. | .inRegAbs .. => true
  | _ => false

/-- `Privileged(op, I, dst, src)` (spec/60_exceptions.md R302), from the table of R93. -/
def privileged (i : Instr) : Bool :=
  isIo i || dstUsed i && dstField i == some .r6 || srcUsed i && srcField i == .r6

/-- The forms that write SW as a whole: `MOV $SW, …` and, in kernel mode, TMC (spec/10_state.md R28, R33). -/
def writesStatusWord : Instr → Bool
  | .movSwReg .. | .movSwImm .. | .movSwPreInc .. | .tmcReg .. | .tmcImm .. => true
  | _ => false

/-- The writers of the carry flag (spec/10_state.md R29). -/
def writesC (i : Instr) : Bool :=
  writesStatusWord i || match i with
  | .addReg .. | .addImm .. | .adcReg .. | .adcImm .. | .subReg .. | .sbcReg .. | .incReg .. | .decReg ..
  | .negReg .. | .cmpReg .. | .cmpImm .. | .shlReg .. | .rolReg .. | .shrReg .. | .rorReg ..
  | .sfl _ .clearC _ | .sfl _ .setC _ => true
  | _ => false

/-- The arithmetic and logic instructions that write both the zero flag and the sign flag
(spec/10_state.md R29). -/
def writesZS : Instr → Bool
  | .addReg .. | .addImm .. | .adcReg .. | .adcImm .. | .subReg .. | .sbcReg .. | .incReg .. | .decReg ..
  | .negReg .. | .cmpReg .. | .cmpImm .. | .shlReg .. | .rolReg .. | .shrReg .. | .rorReg .. | .notReg ..
  | .anlReg .. | .anlImm .. | .orlReg .. | .orlImm .. | .xorReg .. | .xorImm .. | .tstReg .. | .tstImm .. => true
  | _ => false

/-- The writers of the zero flag (spec/10_state.md R29). -/
def writesZ (i : Instr) : Bool :=
  writesStatusWord i || writesZS i || match i with
  | .sfl _ .clearZ _ | .sfl _ .setZ _ => true
  | _ => false

/-- The writers of the sign flag (spec/10_state.md R29). -/
def writesS (i : Instr) : Bool :=
  writesStatusWord i || writesZS i || match i with
  | .sfl _ .clearS _ | .sfl _ .setS _ => true
  | _ => false

/-! ## What changes and what does not -/

/-- Every general register outside the list is unchanged. -/
def sameRegsExcept (rs : List Reg) (s t : State) : Prop := ∀ r, r ∉ rs → t.reg r = s.reg r

/-- Every bit of SW outside the list is unchanged. -/
def sameSwExcept (bits : List Nat) (s t : State) : Prop :=
  ∀ i, i ∉ bits → t.sw.getLsbD i = s.sw.getLsbD i

/-- Every octet of memory outside the words at the listed addresses reads as before. -/
def sameMemExcept (as : List Word) (s t : State) : Prop :=
  ∀ n, (∀ a ∈ as, n ≠ 2 * a.toNat ∧ n ≠ 2 * a.toNat + 1) → t.mem.byteAt n = s.mem.byteAt n

/-- No I/O bus access was made and nothing was taken from the environment. -/
def sameEnv (s t : State) : Prop :=
  t.ioTrace = s.ioTrace ∧ t.ioScript = s.ioScript ∧ t.irqScript = s.irqScript ∧ t.draws = s.draws

/-- The frame of an instruction: at most the listed registers, SW bits and words of memory change. -/
def changesOnly (rs : List Reg) (bits : List Nat) (as : List Word) (s t : State) : Prop :=
  sameRegsExcept rs s t ∧ sameSwExcept bits s t ∧ sameMemExcept as s t ∧ sameEnv s t

/-- What entry through a vector leaves (spec/60_exceptions.md R306): the frame of three words below the old
R6, R6 three lower, R7 at the vector, U clear, I clear if asked, and nothing else changed. -/
def entered (vector number : Word) (clearI : Bool) (s t : State) : Prop :=
  t.load (s.reg .r6) = s.reg .r7 ∧ t.load (s.reg .r6 - 1) = s.sw ∧ t.load (s.reg .r6 - 2) = number
    ∧ t.reg .r6 = s.reg .r6 - 3 ∧ t.reg .r7 = vector
    ∧ flagU t.sw = false ∧ flagI t.sw = (flagI s.sw && !clearI)
    ∧ sameRegsExcept [.r6, .r7] s t ∧ sameSwExcept [3, 4] s t
    ∧ sameMemExcept [s.reg .r6, s.reg .r6 - 1, s.reg .r6 - 2] s t ∧ t.ioTrace = s.ioTrace

/-! ## The shape of a rule about one form -/

/-- `base | M<<6 | dst<<3 | src`, the way the instruction rules write an encoding. -/
def wordOf (base : Word) (m : CondMode) (d r : BitVec 3) : Word :=
  base ||| m.bits.setWidth 16 <<< 6 ||| d.setWidth 16 <<< 3 ||| r.setWidth 16

/-- In user mode, with its condition passed, the instruction takes trap `n` and has no other effect. -/
def trapsInUserMode (i : Instr) (n : Word) : Prop :=
  ∀ s, condPass i.mode s.sw = true → s.user = true →
    ∃ t, exec i s = .next t ∧ entered 0x0004 n false s t ∧ sameEnv s t

/-- With its condition passed, in kernel mode, or in user mode when none of the listed registers is R6, the
instruction completes, and its effect is `P`. -/
def completes (i : Instr) (used : List Reg) (P : State → State → Prop) : Prop :=
  ∀ s, condPass i.mode s.sw = true → (s.user = true → Reg.r6 ∉ used) → ∃ t, exec i s = .next t ∧ P s t

/-- The whole of a rule about one form that is not privileged in itself: its words, Trap(1) where it names R6 in
user mode in a field it uses, and its effect everywhere else. -/
def formRule (i : Instr) (words : List Word) (used : List Reg) (P : State → State → Prop) : Prop :=
  encode i = words ∧ (Reg.r6 ∈ used → trapsInUserMode i 1) ∧ completes i used P

/-- The whole of a rule about one I/O form: its words, Trap(1) in user mode, its effect in kernel mode. -/
def ioRule (i : Instr) (words : List Word) (P : State → State → Prop) : Prop :=
  encode i = words ∧ trapsInUserMode i 1
    ∧ ∀ s, condPass i.mode s.sw = true → s.user = false → ∃ t, exec i s = .next t ∧ P s t

/-- C, Z and S after an instruction that sets all three: the carry given, and Z and S of a result. -/
def flagsCZS (c : Bool) (r : Word) (t : State) : Prop :=
  flagC t.sw = c ∧ flagZ t.sw = decide (r = 0) ∧ flagS t.sw = r.getLsbD 15

/-- Z and S after an instruction that sets these two, from a result. -/
def flagsZS (r : Word) (t : State) : Prop :=
  flagZ t.sw = decide (r = 0) ∧ flagS t.sw = r.getLsbD 15

/-- A register gets a result, C, Z and S are set, and nothing else changes. -/
def resultCZS (d : Reg) (r : Word) (c : Bool) (s t : State) : Prop :=
  t.reg d = r ∧ flagsCZS c r t ∧ changesOnly [d] [0, 1, 2] [] s t

/-- A register gets a result, Z and S are set, and nothing else changes: C is kept. -/
def resultZS (d : Reg) (r : Word) (s t : State) : Prop :=
  t.reg d = r ∧ flagsZS r t ∧ changesOnly [d] [1, 2] [] s t

/-- A register gets a value and nothing else changes: no flag, no memory. -/
def valueOnly (d : Reg) (v : Word) (s t : State) : Prop :=
  t.reg d = v ∧ changesOnly [d] [] [] s t

/-- One word of memory gets a value and nothing else changes: no register, no flag. -/
def storeOnly (a v : Word) (s t : State) : Prop :=
  t.load a = v ∧ changesOnly [] [] [a] s t

/-- SW after an instruction wrote the word `v` to it (spec/10_state.md R33): in user mode only bits 2:0 are taken;
in kernel mode all but the reserved bits 7:6, which are zero. -/
def swWritten (v : Word) (s t : State) : Prop :=
  ∀ j, j < 16 → t.sw.getLsbD j
    = if s.user = true then (if j < 3 then v.getLsbD j else s.sw.getLsbD j)
      else (if j = 6 ∨ j = 7 then false else v.getLsbD j)

/-- The state between two instructions of a straight run: the same but for R7, which the fetch of the second one
advances, and but for what the environment supplied meanwhile. -/
def sameButPc (t u : State) : Prop :=
  (∀ r, r ≠ .r7 → u.reg r = t.reg r) ∧ u.sw = t.sw ∧ u.mem = t.mem

/-! ## Runs -/

/-- A state the machine never leaves, a semantic reading of "halted" (spec/70_reset_and_hazards.md R358). -/
def State.stuckForever (s : State) : Prop := step s = .next s

end Sys2Proof.Machine
end

