-- ==== Sys2Proof/Certificates/Slice0/Obligations.lean ====
section
/-! DEFINITION. The statements for the provers. Each docstring names the rules of spec/ behind it and, where a
clause rests on a choice of the spec's (a decision D<n>) or of the model's, the log entry. The vocabulary
(`formRule`, `entered`, `changesOnly` and so on) is in Sys2Proof/Safety.lean. -/

open Sys2Proof Sys2Proof.Machine

/-! ## Encoding -/

/-- Decode and encode agree: the octets of ANY instruction, followed by anything, decode to it and leave the rest.
Every field at every value, the unused ones too (30_encoding.md R81 to R83; the octet layout is the model's, log 1). -/
def Obligations.DecodeOfEncodeIsIdentity : Prop :=
  ∀ (i : Instr) (rest : List Byte), decode (encodeBytes i ++ rest) = .ok (i, rest)

/-- The other direction: what decodes encodes back to the octets it was read from, so that no bit of a word is
dropped (30_encoding.md R81, R97; the octet layout is the model's, log 1). -/
def Obligations.EncodeOfDecodeIsIdentity : Prop :=
  ∀ (bytes rest : List Byte) (i : Instr), decode bytes = .ok (i, rest) → encodeBytes i ++ rest = bytes

/-- R81 whole: the five fields of the instruction a word decodes to are the word's bit fields; the word is
`(op << 10) | (I << 9) | (M << 6) | (dst << 3) | src`; every pattern decodes; and two words with the same op and I
select the same form, whatever M, dst and src are. -/
def Obligations.EveryWordDecodesToItsFields : Prop :=
  (∀ iw next : Word,
    (fieldsOf (decodeWords iw next)).op = iw.extractLsb' 10 6
      ∧ (fieldsOf (decodeWords iw next)).hasImm = iw.getLsbD 9
      ∧ (fieldsOf (decodeWords iw next)).mode.bits = iw.extractLsb' 6 3
      ∧ (fieldsOf (decodeWords iw next)).dst = iw.extractLsb' 3 3
      ∧ (fieldsOf (decodeWords iw next)).src = iw.extractLsb' 0 3)
    ∧ (∀ i : Instr, encodeWord i
        = (fieldsOf i).op.setWidth 16 <<< 10 ||| (BitVec.ofBool (fieldsOf i).hasImm).setWidth 16 <<< 9
          ||| (fieldsOf i).mode.bits.setWidth 16 <<< 6 ||| (fieldsOf i).dst.setWidth 16 <<< 3
          ||| (fieldsOf i).src.setWidth 16)
    ∧ (∀ iw iw' next : Word, iw &&& 0xFE00 = iw' &&& 0xFE00 →
        fieldUse (decodeWords iw next) = fieldUse (decodeWords iw' next)
          ∧ isUnused (decodeWords iw next) = isUnused (decodeWords iw' next)
          ∧ (decodeWords iw next).length = (decodeWords iw' next).length)

/-- A few words written out from the spec's own encodings decode to the instruction they stand for, one of each
family (30_encoding.md R92). -/
def Obligations.SampleWordsDecode : Prop :=
  decodeWords 0x000A 0 = .movRegReg .always .r1 .r2
    ∧ decodeWords 0x2C08 0 = .movSwReg .always .r1 .r0
    ∧ decodeWords 0x4AB8 0xFFFC = .assImm .nz .r7 .r0 0xFFFC
    ∧ decodeWords 0x5C0A 0 = .shlReg .always .r1 .r2
    ∧ decodeWords 0x8038 0 = .sfl .always .setI .r0
    ∧ decodeWords 0x8630 0x0300 = .sexImm .always .r6 .r0 0x0300
    ∧ decodeWords 0x8E08 0x0001 = .cmpImm .always .r1 .r0 0x0001
    ∧ decodeWords 0x3602 0x0010 = .outAbsReg .always .r0 .r2 0x0010
    ∧ decodeWords 0xFF00 0xBEEF = .illegal3FImm .never .r0 .r0 0xBEEF

/-! ## The step -/

/-- A step runs the decoded instruction: when the octets at R7 decode to `i` and no interrupt is taken, the step is
`exec i` from the state with R7 advanced past the instruction's words (30_encoding.md R86, 10_state.md R25). -/
def Obligations.StepRunsTheDecodedInstruction : Prop :=
  ∀ (s s1 : State) (i : Instr) (rest : List Byte),
    sampleInterrupt s = (none, s1) →
    decode (bytesOfWord (s.load s.pc) ++ bytesOfWord (s.load (s.pc + 1))) = .ok (i, rest) →
    step s = exec i (s1.setPc (s.pc + BitVec.ofNat 16 i.length))

/-- `withFetchWord` places the word where the very next step fetches it, whatever the state: that step runs exactly
the instruction the word decodes to, and takes no interrupt (the model's interface, log 5). -/
def Obligations.StepRunsThePlacedWord : Prop :=
  ∀ (s : State) (nbits w : Nat) (i : Instr), decodeTableWord nbits w = some i →
    step (s.withFetchWord nbits w)
      = exec i (((s.store s.pc (tableWords nbits w).1).store (s.pc + 1) (tableWords nbits w).2).setPc
          (s.pc + BitVec.ofNat 16 i.length))

/-- The machine never stops: every step of every state gives a next state (60_exceptions.md R324,
70_reset_and_hazards.md R358: there is no halt). That no access faults and nothing is refused is the model's reading
(DEDUCED: log 35), and rests on choices of the spec that the model follows: all of memory is RAM (D4: log 13), SW.M = 1 is
run with no MMU where the spec lets a model refuse (D5: log 14), and an unused pair traps where the spec lets a model
refuse (D9: log 16). -/
def Obligations.EveryStepGivesANextState : Prop :=
  ∀ s : State, ∃ t, step s = .next t

/-- THE INVARIANT that every step keeps: memory in canonical form, and SW bits 7:6 zero (10_state.md R33). -/
def Obligations.EveryStepKeepsTheInvariant : Prop :=
  ∀ s t : State, s.Inv → step s = .next t → t.Inv

/-- The invariant holds right after reset. -/
def Obligations.ResetHasTheInvariant : Prop := State.reset.Inv

/-- What the spec decides of reset: R7 = 0x0000 and SW = 0x0000, so kernel mode with interrupts disabled, every
mask bit 0 and the MMU disabled (10_state.md R37, the spec's decision D23: log 4). Nothing is said of R0..R6. -/
def Obligations.ResetStartsInKernelModeAtZero : Prop :=
  State.reset.reg .r7 = 0x0000 ∧ State.reset.sw = 0x0000 ∧ State.reset.user = false
    ∧ flagI State.reset.sw = false ∧ irqMask State.reset.sw = 0 ∧ flagM State.reset.sw = false

/-- R84 whole: the rule's formula over the bits of M and the flags, its table, and what the mode does: where it passes on
the status word before the instruction, the instruction does what its unconditional form does; where it does not, an
instruction that could not trap anyway is skipped (that no trap is raised either is R85, log 15, and a statement of its
own). -/
def Obligations.ConditionModeTable : Prop :=
  (∀ (m : CondMode) (sw : Word),
    condPass m sw =
      let f := if m.bits.extractLsb' 0 2 = 0 then true else if m.bits.extractLsb' 0 2 = 1 then sw.getLsbD 0
        else if m.bits.extractLsb' 0 2 = 2 then sw.getLsbD 1 else sw.getLsbD 2
      let skip := if m.bits.getLsbD 2 = false then (decide (m.bits.extractLsb' 0 2 ≠ 0) && f)
        else (decide (m.bits.extractLsb' 0 2 = 0) || !f)
      !skip)
    ∧ (∀ sw : Word, ([0, 1, 2, 3, 4, 5, 6, 7] : List (BitVec 3)).map (fun b => condPass (CondMode.ofBits b) sw)
        = [true, !sw.getLsbD 0, !sw.getLsbD 1, !sw.getLsbD 2, false, sw.getLsbD 0, sw.getLsbD 1, sw.getLsbD 2])
    ∧ ∀ (i : Instr) (s : State),
        (condPass i.mode s.sw = true → exec i s = exec (instrOf { fieldsOf i with mode := .always }) s)
          ∧ (condPass i.mode s.sw = false → isUnused i = false → privileged i = false → exec i s = .next s)

/-- A skipped instruction changes nothing, whatever it is: no register (R7 was advanced before), no flag, no memory,
no bus access, no trap of any kind; so every word with M = 100 is a no-operation (30_encoding.md R85, R96; that no
trap is raised is the spec's decision D8: log 15). -/
def Obligations.SkippedInstructionChangesNothing : Prop :=
  ∀ (i : Instr) (s : State), condPass i.mode s.sw = false → exec i s = .next s

/-- What a form does not use is ignored: two instructions of one form with the same mode, the same immediate and the
same USED fields do the same on every state (30_encoding.md R94, the spec's decision D12: log 18). -/
def Obligations.UnusedFieldsAreIgnored : Prop :=
  ∀ (i j : Instr) (s : State),
    (fieldsOf i).op = (fieldsOf j).op → (fieldsOf i).hasImm = (fieldsOf j).hasImm →
    (fieldsOf i).mode = (fieldsOf j).mode → (fieldsOf i).imm = (fieldsOf j).imm →
    ((fieldUse i).1 ≠ .unused → (fieldsOf i).dst = (fieldsOf j).dst) →
    ((fieldUse i).2 ≠ .unused → (fieldsOf i).src = (fieldsOf j).src) →
    exec i s = exec j s

/-! ## Traps, interrupts, privilege -/

/-- Each of the 63 unused (opcode, I) pairs (every constructor `illegal…`) completes by taking Trap(0) when its
condition passes, in either mode (30_encoding.md R95, 60_exceptions.md R304, R309; the spec's decisions D9 and D10:
log 16, 17). -/
def Obligations.UnusedPairsTakeTrapZero : Prop :=
  ∀ (i : Instr) (s : State), isUnused i = true → condPass i.mode s.sw = true →
    ∃ t, exec i s = .next t ∧ entered 0x0004 0 false s t ∧ sameEnv s t

/-- In user mode a privileged instruction, an I/O form or one that names R6 in a field it uses, takes Trap(1) and has
no other effect: no bus access either (60_exceptions.md R302; the spec's decisions D10, D11, D18: log 17, 23). -/
def Obligations.PrivilegedInstructionTakesTrapOneInUserMode : Prop :=
  ∀ (i : Instr) (s : State), privileged i = true → condPass i.mode s.sw = true → s.user = true →
    ∃ t, exec i s = .next t ∧ entered 0x0004 1 false s t ∧ sameEnv s t

/-- User code is confined: a step from user mode either stays in user mode with R6, the I/O bus and every SW bit but S,
Z and C untouched, or it enters the kernel at one of the two fixed entry points with the old SW on the R6 stack and no
bus access made (10_state.md R31, 60_exceptions.md R301; the spec's decisions D16 to D18: log 22, 23). -/
def Obligations.UserModeIsConfined : Prop :=
  ∀ s t : State, s.user = true → step s = .next t →
    (t.user = true ∧ t.reg .r6 = s.reg .r6 ∧ sameSwExcept [0, 1, 2] s t ∧ t.ioTrace = s.ioTrace)
      ∨ (t.user = false ∧ (t.reg .r7 = 0x0002 ∨ t.reg .r7 = 0x0004) ∧ t.reg .r6 = s.reg .r6 - 3
          ∧ t.load (s.reg .r6 - 1) = s.sw ∧ t.ioTrace = s.ioTrace)

/-- User mode is entered only by a kernel-mode write of SW: `MOV $SW, …` in its three forms, or TMC
(10_state.md R31, 60_exceptions.md R301). -/
def Obligations.UserModeIsEnteredOnlyByStatusWrites : Prop :=
  ∀ (i : Instr) (s t : State), s.user = false → exec i s = .next t → t.user = true →
    (∃ m d r, i = .movSwReg m d r) ∨ (∃ m d r imm, i = .movSwImm m d r imm) ∨ (∃ m d r, i = .movSwPreInc m d r)
      ∨ (∃ m d r, i = .tmcReg m d r) ∨ (∃ m d r imm, i = .tmcImm m d r imm)

/-- Which instructions write which flags, as a frame over all of them: an instruction outside the list of R29 leaves the
flag as it was, skipped, trapped or executed; the M flag and the interrupt mask change only by a write of SW as a whole
(10_state.md R29, R32, R34; that the moves change no flag is the spec's decision D28: log 25). -/
def Obligations.OnlyTheListedInstructionsWriteFlags : Prop :=
  ∀ (i : Instr) (s t : State), exec i s = .next t →
    (writesC i = false → flagC t.sw = flagC s.sw)
      ∧ (writesZ i = false → flagZ t.sw = flagZ s.sw)
      ∧ (writesS i = false → flagS t.sw = flagS s.sw)
      ∧ (writesStatusWord i = false → flagM t.sw = flagM s.sw ∧ irqMask t.sw = irqMask s.sw)

/-- Only the five I/O forms reach the I/O bus, and each of them makes exactly one access when it executes in kernel
mode (46_io.md R225, R226; how the environment is represented is the model's: log 8, 9). -/
def Obligations.OnlyIoFormsReachTheIoBus : Prop :=
  ∀ (i : Instr) (s t : State), exec i s = .next t →
    (isIo i = false → sameEnv s t)
      ∧ (isIo i = true → condPass i.mode s.sw = true → s.user = false → ∃ e, t.ioTrace = s.ioTrace ++ [e])

/-- An interrupt is taken: where interrupts are enabled and the signals have an enabled member, the step enters one
such member through 0x0002 with R7 the address of the instruction not yet fetched; and which one is certain where there
is one only (60_exceptions.md R305, R306, R311, R312). The levels are the script's next entry, or past its end, as on
every run from reset, the free value `Config.irqLevels` (the model's choice: log 6, 10). The spec's own decisions: a mask
bit of 1 enables (D19: log 11), any enabled signal may be chosen (D20: log 7), levels sampled between instructions (D21:
log 6), before the fetch (D22: log 24), signal k governed by mask bit 8 + k and pushed as the number k (D29: log 26). -/
def Obligations.EnabledInterruptIsTaken : Prop :=
  ∀ (s : State) (levels : BitVec 8),
    flagI s.sw = true → levels = s.irqScript.headD (Config.irqLevels s.draws) → levels &&& irqMask s.sw ≠ 0 →
    ∃ (k : Fin 8) (t : State), levels.getLsbD k.val = true ∧ s.sw.getLsbD (8 + k.val) = true
      ∧ step s = .next t ∧ entered 0x0002 (BitVec.ofNat 16 k.val) true s t
      ∧ t.irqScript = s.irqScript.tail ∧ t.ioScript = s.ioScript
      ∧ ∀ j : Fin 8, levels &&& irqMask s.sw = BitVec.ofNat 8 (2 ^ j.val) → k = j

/-- No interrupt is taken with I = 0, whatever the signals, nor with I = 1 when every asserted signal is masked: the step
is the instruction at R7 (60_exceptions.md R311, 30_encoding.md R86). With I = 0 no sample is taken; with I = 1 one is,
the script's next entry or past its end the free value `Config.irqLevels` of the next draw (the model's choice: log 6,
10). The spec's own decisions: a mask bit of 1 enables (D19: log 11), levels sampled between instructions (D21: log 6),
before the fetch (D22: log 24), signal k governed by mask bit 8 + k (D29: log 26). -/
def Obligations.DisabledOrMaskedInterruptIsNotTaken : Prop :=
  (∀ s : State, flagI s.sw = false → step s = exec (fetch s).1 (fetch s).2)
    ∧ ∀ s : State, flagI s.sw = true →
        s.irqScript.headD (Config.irqLevels s.draws) &&& irqMask s.sw = 0 →
        let sampled : State :=
          { s with
            irqScript := s.irqScript.tail
            draws := if s.irqScript = [] then s.draws + 1 else s.draws }
        step s = exec (fetch sampled).1 (fetch sampled).2

/-- R207 whole: TMC in user mode, with the number in a register (not R6, which is Trap(1) by R205) or immediate, pushes R7,
SW with U still set, and the number, whatever it is, through R6, goes to 0x0004 and clears U; the I flag, the M flag and
the interrupt mask are unchanged. -/
def Obligations.SystemCallEntersTheTrapHandler : Prop :=
  ∀ (m : CondMode) (d r : Reg) (imm : Word) (s : State), condPass m s.sw = true → s.user = true →
    (r ≠ .r6 → ∃ t, exec (.tmcReg m d r) s = .next t ∧ entered 0x0004 (s.reg r) false s t ∧ sameEnv s t)
      ∧ ∃ t, exec (.tmcImm m d r imm) s = .next t ∧ entered 0x0004 imm false s t ∧ sameEnv s t

/-- R208 whole: TMC in kernel mode, in both forms and whatever its fields, pops SW (bits 7:6 stay zero) and then R7 through
R6, and nothing else changes. It is never a trap, it pops two words, and it checks nothing. -/
def Obligations.KernelTransferReturns : Prop :=
  ∀ (m : CondMode) (d r : Reg) (imm : Word) (i : Instr) (s : State),
    i = .tmcReg m d r ∨ i = .tmcImm m d r imm → condPass m s.sw = true → s.user = false →
    ∃ t, exec i s = .next t
      ∧ t.sw = s.load (s.reg .r6 + 1) &&& 0xFF3F
      ∧ t.reg .r7 = s.load (s.reg .r6 + 2)
      ∧ t.reg .r6 = s.reg .r6 + 2
      ∧ changesOnly [.r6, .r7] (List.range 16) [] s t

/-- Entry, then the handler's return, restores: whatever the handler did in between, if it is in kernel mode with R6 and
the three words of the frame as entry left them, removing the number, in either way R314 gives, and executing TMC leaves
R6, R7 and SW as they were before the trap or the interrupt (60_exceptions.md R314). The load into R6 itself is not among
the ways: it leaves the number as the stack pointer; nor is the load into R7, which jumps to the number. -/
def Obligations.EntryThenReturnRestores : Prop :=
  ∀ (s h : State) (vector number : Word) (clearI : Bool) (d r : Reg) (i : Instr),
    i = .movRegPreInc .always d .r6 ∧ d ≠ .r6 ∧ d ≠ .r7 ∨ i = .assImm .always .r6 r 0x0001 →
    s.reservedClear → h.user = false →
    h.reg .r6 = (s.enter vector number clearI).reg .r6 →
    (∀ a ∈ [s.reg .r6, s.reg .r6 - 1, s.reg .r6 - 2], h.load a = (s.enter vector number clearI).load a) →
    ∃ h1, exec i h = .next h1 ∧ (i = .movRegPreInc .always d .r6 → h1.reg d = number)
      ∧ ∀ h2, sameButPc h1 h2 → ∃ u, exec (.tmcReg .always .r0 .r0) h2 = .next u
        ∧ u.reg .r6 = s.reg .r6 ∧ u.reg .r7 = s.reg .r7 ∧ u.sw = s.sw
        ∧ sameRegsExcept [.r6, .r7] h2 u ∧ u.mem = h2.mem

/-- Call, then return: a subroutine that leaves its stack pointer and its return address alone comes back to the
instruction after the SEX, with the pointer restored, for both SEX forms (44_control.md R203, R204,
41_status_and_stack_moves.md R148). -/
def Obligations.CallThenReturnComesBack : Prop :=
  ∀ (i : Instr) (s : State) (d r : Reg) (imm : Word),
    i = .sexReg .always d r ∨ i = .sexImm .always d r imm → d ≠ .r7 →
    (s.user = true → privileged i = false) →
    ∃ t, exec i s = .next t
      ∧ ∀ h : State, h.user = s.user → h.reg d = t.reg d → h.load (s.reg d) = t.load (s.reg d) →
        ∃ u, exec (.movRegPreInc .always .r7 d) h = .next u ∧ u.reg .r7 = s.reg .r7 ∧ u.reg d = s.reg d

/-- R59 whole: a push writes at the pointer and then decrements it, a pop increments the pointer and then reads there, a pop
after a push gives the word back and restores the pointer, by the instructions and by the hardware's own R6 sequences:
entry is three such pushes, and the return two such pops. -/
def Obligations.StackDiscipline : Prop :=
  (∀ (m : CondMode) (d r x : Reg) (s : State), condPass m s.sw = true →
      (s.user = true → Reg.r6 ∉ [d, r, x]) →
      ∃ t, exec (.movPostDecReg m d r) s = .next t ∧ t.load (s.reg d) = s.reg r ∧ t.reg d = s.reg d - 1
        ∧ ∀ u, sameButPc t u → x ≠ d → d ≠ .r7 →
          ∃ v, exec (.movRegPreInc m x d) u = .next v ∧ v.reg x = s.reg r ∧ v.reg d = s.reg d)
    ∧ (∀ (m : CondMode) (x r : Reg) (s : State), condPass m s.sw = true →
      (s.user = true → Reg.r6 ∉ [x, r]) → x ≠ r →
      ∃ t, exec (.movRegPreInc m x r) s = .next t ∧ t.reg r = s.reg r + 1 ∧ t.reg x = s.load (s.reg r + 1))
    ∧ (∀ (s : State) (vector number : Word) (clearI : Bool),
      let t := s.enter vector number clearI
      let p := ((s.push .r6 s.pc).push .r6 s.sw).push .r6 number
      t.mem = p.mem ∧ t.reg .r6 = p.reg .r6 ∧ t.reg .r6 = s.reg .r6 - 3)
    ∧ (∀ s : State, s.user = false →
      let q := (s.pop .r6).2
      s.returnFromTrap.sw = (s.pop .r6).1 &&& 0xFF3F ∧ s.returnFromTrap.pc = (q.pop .r6).1
        ∧ s.returnFromTrap.reg .r6 = (q.pop .r6).2.reg .r6)

/-! ## Data moves: each form's words, Trap(1), effect and frame -/

/-- `MOV dst, src` and `MOV dst, imm`; a destination R7 is a jump (40_mov.md R112, R113; no flag by the spec's decision
D28: log 25; Trap(1) by D18: log 23). -/
def Obligations.RegisterAndImmediateMoves : Prop :=
  ∀ (m : CondMode) (d r : Reg) (imm : Word),
    formRule (.movRegReg m d r) [wordOf 0x0000 m d.bits r.bits] [d, r] (fun s => valueOnly d (s.reg r) s)
      ∧ formRule (.movRegImm m d r imm) [wordOf 0x0200 m d.bits r.bits, imm] [d] (fun s => valueOnly d imm s)

/-- The loads `MOV dst, [src]`, `[imm]`, `[src+imm]`, the sum modulo 65536 (40_mov.md R114, R115, R124; the spec's
decisions D18, D28: log 23, 25). -/
def Obligations.RegisterLoads : Prop :=
  ∀ (m : CondMode) (d r : Reg) (imm : Word),
    formRule (.movRegInd m d r) [wordOf 0x0400 m d.bits r.bits] [d, r]
        (fun s => valueOnly d (s.load (s.reg r)) s)
      ∧ formRule (.movRegAbs m d r imm) [wordOf 0x0600 m d.bits r.bits, imm] [d]
        (fun s => valueOnly d (s.load imm) s)
      ∧ formRule (.movRegDisp m d r imm) [wordOf 0x1A00 m d.bits r.bits, imm] [d, r]
        (fun s => valueOnly d (s.load (BitVec.ofNat 16 ((s.reg r).toNat + imm.toNat))) s)

/-- The stores `MOV [dst], src`, `[dst], imm`, `[imm], src`, `[dst+imm], src`: one word of memory and nothing else
(40_mov.md R116, R117, R120, R128; the spec's decisions D4, D18, D28: log 13, 23, 25). -/
def Obligations.MemoryStores : Prop :=
  ∀ (m : CondMode) (d r : Reg) (imm : Word),
    formRule (.movIndReg m d r) [wordOf 0x0800 m d.bits r.bits] [d, r]
        (fun s => storeOnly (s.regAddr d) (s.reg r) s)
      ∧ formRule (.movIndImm m d r imm) [wordOf 0x0A00 m d.bits r.bits, imm] [d]
        (fun s => storeOnly (s.regAddr d) imm s)
      ∧ formRule (.movAbsReg m d r imm) [wordOf 0x1200 m d.bits r.bits, imm] [r]
        (fun s => storeOnly imm (s.reg r) s)
      ∧ formRule (.movDispReg m d r imm) [wordOf 0x2200 m d.bits r.bits, imm] [d, r]
        (fun s => storeOnly (s.dispAddr d imm) (s.reg r) s)

/-- The memory-to-memory moves: the word read before the write is stored, and nothing else changes (40_mov.md R118, R119,
R121, R125, R129; 20_memory.md R61, the spec's decision D27: log 31; D18, D28: log 23, 25). -/
def Obligations.MemoryToMemoryMoves : Prop :=
  ∀ (m : CondMode) (d r : Reg) (imm : Word),
    formRule (.movIndInd m d r) [wordOf 0x0C00 m d.bits r.bits] [d, r]
        (fun s => storeOnly (s.regAddr d) (s.load (s.reg r)) s)
      ∧ formRule (.movIndAbs m d r imm) [wordOf 0x0E00 m d.bits r.bits, imm] [d]
        (fun s => storeOnly (s.regAddr d) (s.load imm) s)
      ∧ formRule (.movAbsInd m d r imm) [wordOf 0x1600 m d.bits r.bits, imm] [r]
        (fun s => storeOnly imm (s.load (s.reg r)) s)
      ∧ formRule (.movIndDisp m d r imm) [wordOf 0x1E00 m d.bits r.bits, imm] [d, r]
        (fun s => storeOnly (s.regAddr d) (s.load (s.reg r + imm)) s)
      ∧ formRule (.movDispInd m d r imm) [wordOf 0x2600 m d.bits r.bits, imm] [d, r]
        (fun s => storeOnly (s.dispAddr d imm) (s.load (s.reg r)) s)

/-- The post-increment moves: the address is the register before the increment, which wraps; the loaded word wins when
one register is in both fields, and the old value is stored (40_mov.md R122, R123; the spec's decision D14: log 20). -/
def Obligations.PostIncrementMoves : Prop :=
  ∀ (m : CondMode) (d r : Reg),
    formRule (.movRegPostInc m d r) [wordOf 0x1000 m d.bits r.bits] [d, r]
        (fun s t => t.reg d = s.load (s.reg r) ∧ (r ≠ d → t.reg r = s.reg r + 1) ∧ changesOnly [d, r] [] [] s t)
      ∧ formRule (.movPostIncReg m d r) [wordOf 0x1400 m d.bits r.bits] [d, r]
        (fun s t => t.load (s.reg d) = s.reg r ∧ t.reg d = s.reg d + 1 ∧ changesOnly [d] [] [s.reg d] s t)

/-- MVL and MVH take one byte of the source, NUL clears, MKW merges the low byte of the source into the high byte of the
destination by OR; no flag (40_mov.md R126, R127, R130, R131; the spec's decisions D18, D28: log 23, 25). -/
def Obligations.ByteMoves : Prop :=
  ∀ (m : CondMode) (d r : Reg),
    formRule (.mvl m d r) [wordOf 0x1800 m d.bits r.bits] [d, r]
        (fun s => valueOnly d (BitVec.ofNat 16 ((s.reg r).toNat % 256)) s)
      ∧ formRule (.mvh m d r) [wordOf 0x1C00 m d.bits r.bits] [d, r]
        (fun s => valueOnly d (BitVec.ofNat 16 ((s.reg r).toNat / 256)) s)
      ∧ formRule (.nul m d r) [wordOf 0x2000 m d.bits r.bits] [d] (fun s => valueOnly d 0x0000 s)
      ∧ formRule (.mkw m d r) [wordOf 0x2400 m d.bits r.bits] [d, r]
        (fun s => valueOnly d (s.reg d ||| (s.reg r &&& 0x00FF) <<< 8) s)

/-! ## Status word and stack -/

/-- Reading SW into a register or a word of memory, allowed in user mode (41_status_and_stack_moves.md R141, R142; the
spec's decision D18 for Trap(1): log 23). -/
def Obligations.StatusWordReads : Prop :=
  ∀ (m : CondMode) (d r : Reg) (imm : Word),
    formRule (.movRegSw m d r) [wordOf 0x2800 m d.bits r.bits] [d] (fun s => valueOnly d s.sw s)
      ∧ formRule (.movAbsSw m d r imm) [wordOf 0x2A00 m d.bits r.bits, imm] [] (fun s => storeOnly imm s.sw s)

/-- Writing SW from a register, an immediate or a popped word: in kernel mode all bits but 7:6, in user mode bits 2:0 only
and no trap for the rest (10_state.md R33, 41_status_and_stack_moves.md R143, R144, R149; the spec's decisions D13, D17,
D18: log 19, 22, 23). -/
def Obligations.StatusWordWrites : Prop :=
  ∀ (m : CondMode) (d r : Reg) (imm : Word),
    formRule (.movSwReg m d r) [wordOf 0x2C00 m d.bits r.bits] [d]
        (fun s t => swWritten (s.reg d) s t ∧ changesOnly [] (List.range 16) [] s t)
      ∧ formRule (.movSwImm m d r imm) [wordOf 0x2E00 m d.bits r.bits, imm] []
        (fun s t => swWritten imm s t ∧ changesOnly [] (List.range 16) [] s t)
      ∧ formRule (.movSwPreInc m d r) [wordOf 0x3C00 m d.bits r.bits] [r]
        (fun s t => swWritten (s.load (s.reg r + 1)) s t ∧ t.reg r = s.reg r + 1
          ∧ changesOnly [r] (List.range 16) [] s t)

/-- The pushes `MOV [dst--], src`, `imm`, `$SW`: the word at the register's value, then the decrement, which wraps
(41_status_and_stack_moves.md R145 to R147; the spec's decisions D14, D18: log 20, 23). -/
def Obligations.PostDecrementStores : Prop :=
  ∀ (m : CondMode) (d r : Reg) (imm : Word),
    formRule (.movPostDecReg m d r) [wordOf 0x3000 m d.bits r.bits] [d, r]
        (fun s t => t.load (s.reg d) = s.reg r ∧ t.reg d = s.reg d - 1 ∧ changesOnly [d] [] [s.reg d] s t)
      ∧ formRule (.movPostDecImm m d r imm) [wordOf 0x3200 m d.bits r.bits, imm] [d]
        (fun s t => t.load (s.reg d) = imm ∧ t.reg d = s.reg d - 1 ∧ changesOnly [d] [] [s.reg d] s t)
      ∧ formRule (.movPostDecSw m d r) [wordOf 0x3400 m d.bits r.bits] [d]
        (fun s t => t.load (s.reg d) = s.sw ∧ t.reg d = s.reg d - 1 ∧ changesOnly [d] [] [s.reg d] s t)

/-- The pop `MOV dst, [++src]`: the increment, which wraps, then the word at the new value; the loaded word wins when one
register is in both fields (41_status_and_stack_moves.md R148; the spec's decisions D14, D18: log 20, 23). -/
def Obligations.PreIncrementLoad : Prop :=
  ∀ (m : CondMode) (d r : Reg),
    formRule (.movRegPreInc m d r) [wordOf 0x3800 m d.bits r.bits] [d, r]
      (fun s t => t.reg d = s.load (s.reg r + 1) ∧ (r ≠ d → t.reg r = s.reg r + 1) ∧ changesOnly [d, r] [] [] s t)

/-! ## Arithmetic -/

/-- ADD and ADC, register and immediate: the sum, with the incoming carry for ADC only, and C, Z, S from it; ASS adds and
leaves every flag alone (42_arithmetic.md R162 to R167; Trap(1) by the spec's decision D18: log 23). -/
def Obligations.Additions : Prop :=
  ∀ (m : CondMode) (d r : Reg) (imm : Word),
    formRule (.addReg m d r) [wordOf 0x4000 m d.bits r.bits] [d, r]
        (fun s => resultCZS d (s.reg d + s.reg r) (decide (65536 ≤ (s.reg d).toNat + (s.reg r).toNat)) s)
      ∧ formRule (.addImm m d r imm) [wordOf 0x4200 m d.bits r.bits, imm] [d]
        (fun s => resultCZS d (s.reg d + imm) (decide (65536 ≤ (s.reg d).toNat + imm.toNat)) s)
      ∧ formRule (.adcReg m d r) [wordOf 0x4400 m d.bits r.bits] [d, r]
        (fun s =>
          let n := (s.reg d).toNat + (s.reg r).toNat + (flagC s.sw).toNat
          resultCZS d (BitVec.ofNat 16 n) (decide (65536 ≤ n)) s)
      ∧ formRule (.adcImm m d r imm) [wordOf 0x4600 m d.bits r.bits, imm] [d]
        (fun s =>
          let n := (s.reg d).toNat + imm.toNat + (flagC s.sw).toNat
          resultCZS d (BitVec.ofNat 16 n) (decide (65536 ≤ n)) s)
      ∧ formRule (.assReg m d r) [wordOf 0x4800 m d.bits r.bits] [d, r]
        (fun s => valueOnly d (s.reg d + s.reg r) s)
      ∧ formRule (.assImm m d r imm) [wordOf 0x4A00 m d.bits r.bits, imm] [d]
        (fun s => valueOnly d (s.reg d + imm) s)

/-- SUB and SBC: the difference, less the pending borrow for SBC (incoming C = 0); C = 1 means no borrow, whatever the
subtrahend, zero included (42_arithmetic.md R161, R168, R169; the spec's decision D15: log 21). -/
def Obligations.Subtractions : Prop :=
  ∀ (m : CondMode) (d r : Reg),
    formRule (.subReg m d r) [wordOf 0x4C00 m d.bits r.bits] [d, r]
        (fun s => resultCZS d (s.reg d - s.reg r) (decide ((s.reg r).toNat ≤ (s.reg d).toNat)) s)
      ∧ formRule (.sbcReg m d r) [wordOf 0x5000 m d.bits r.bits] [d, r]
        (fun s =>
          if flagC s.sw = true then
            resultCZS d (s.reg d - s.reg r) (decide ((s.reg r).toNat ≤ (s.reg d).toNat)) s
          else resultCZS d (s.reg d - s.reg r - 1) (decide ((s.reg r).toNat < (s.reg d).toNat)) s)

/-- INC and DEC of another register: C is set by INC of 0xFFFF only, and cleared by DEC of 0 only (42_arithmetic.md R170,
R171; Trap(1) by the spec's decision D18: log 23). -/
def Obligations.IncrementAndDecrement : Prop :=
  ∀ (m : CondMode) (d r : Reg),
    formRule (.incReg m d r) [wordOf 0x5400 m d.bits r.bits] [d, r]
        (fun s => resultCZS d (s.reg r + 1) (decide (s.reg r = 0xFFFF)) s)
      ∧ formRule (.decReg m d r) [wordOf 0x5800 m d.bits r.bits] [d, r]
        (fun s => resultCZS d (s.reg r - 1) (decide (s.reg r ≠ 0)) s)

/-- Double-word addition: ADD of the low words, then ADC of the high ones, is the sum of 32-bit numbers, and C the carry
out of it (42_arithmetic.md R160, R162, R164). -/
def Obligations.DoubleWordAddition : Prop :=
  ∀ (l h y z : Reg) (s : State), l ≠ .r7 → h ≠ .r7 → y ≠ .r7 → z ≠ .r7 → l ≠ h → z ≠ l →
    (s.user = true → Reg.r6 ∉ [l, h, y, z]) →
    ∃ t, exec (.addReg .always l y) s = .next t
      ∧ ∀ u, sameButPc t u → ∃ v, exec (.adcReg .always h z) u = .next v
        ∧ 4294967296 * (flagC v.sw).toNat + 65536 * (v.reg h).toNat + (v.reg l).toNat
          = (65536 * (s.reg h).toNat + (s.reg l).toNat) + (65536 * (s.reg z).toNat + (s.reg y).toNat)

/-- Double-word subtraction: SUB of the low words, then SBC of the high ones, is the difference of 32-bit numbers, and C
means no borrow (42_arithmetic.md R161, R168, R169; the spec's decision D15 makes it right also where the low subtrahend
is zero: log 21). -/
def Obligations.DoubleWordSubtraction : Prop :=
  ∀ (l h y z : Reg) (s : State), l ≠ .r7 → h ≠ .r7 → y ≠ .r7 → z ≠ .r7 → l ≠ h → z ≠ l →
    (s.user = true → Reg.r6 ∉ [l, h, y, z]) →
    ∃ t, exec (.subReg .always l y) s = .next t
      ∧ ∀ u, sameButPc t u → ∃ v, exec (.sbcReg .always h z) u = .next v
        ∧ 65536 * (v.reg h).toNat + (v.reg l).toNat + (65536 * (s.reg z).toNat + (s.reg y).toNat)
          = (65536 * (s.reg h).toNat + (s.reg l).toNat) + 4294967296 * (!flagC v.sw).toNat

/-! ## Shifts and logic -/

/-- SHL and SHR by one bit: a zero enters, the bit that leaves goes to C, and Z and S are of the result (43_shift_logic.md
R181, R183; that SHR is logical is the spec's decision D31: log 27). -/
def Obligations.OneBitShifts : Prop :=
  ∀ (m : CondMode) (d r : Reg),
    formRule (.shlReg m d r) [wordOf 0x5C00 m d.bits r.bits] [d, r]
        (fun s => resultCZS d (BitVec.ofNat 16 (2 * (s.reg r).toNat)) (decide (32768 ≤ (s.reg r).toNat)) s)
      ∧ formRule (.shrReg m d r) [wordOf 0x6400 m d.bits r.bits] [d, r]
        (fun s => resultCZS d (BitVec.ofNat 16 ((s.reg r).toNat / 2)) (decide ((s.reg r).toNat % 2 = 1)) s)

/-- ROL and ROR: the old carry enters and the bit that leaves goes to C (43_shift_logic.md R182, R184; Trap(1) by the
spec's decision D18: log 23). -/
def Obligations.RotatesThroughCarry : Prop :=
  ∀ (m : CondMode) (d r : Reg),
    formRule (.rolReg m d r) [wordOf 0x6000 m d.bits r.bits] [d, r]
        (fun s => resultCZS d (BitVec.ofNat 16 (2 * (s.reg r).toNat + (flagC s.sw).toNat))
          (decide (32768 ≤ (s.reg r).toNat)) s)
      ∧ formRule (.rorReg m d r) [wordOf 0x6800 m d.bits r.bits] [d, r]
        (fun s => resultCZS d (BitVec.ofNat 16 ((s.reg r).toNat / 2 + 32768 * (flagC s.sw).toNat))
          (decide ((s.reg r).toNat % 2 = 1)) s)

/-- A rotation is of 17 bits: seventeen ROLs restore word and carry, seventeen RORs too, and each undoes the other
(43_shift_logic.md R180, R182, R184). -/
def Obligations.SeventeenRotationsRestore : Prop :=
  ∀ (v : Word) (c : Bool),
    (fun p : Word × Bool => rotateLeft1 p.1 p.2)^[17] (v, c) = (v, c)
      ∧ (fun p : Word × Bool => rotateRight1 p.1 p.2)^[17] (v, c) = (v, c)
      ∧ rotateRight1 (rotateLeft1 v c).1 (rotateLeft1 v c).2 = (v, c)
      ∧ rotateLeft1 (rotateRight1 v c).1 (rotateRight1 v c).2 = (v, c)

/-- NOT keeps C; NEG sets C for the operand 0 only (43_shift_logic.md R185, R186; Trap(1) by the spec's decision D18:
log 23). -/
def Obligations.ComplementAndNegate : Prop :=
  ∀ (m : CondMode) (d r : Reg),
    formRule (.notReg m d r) [wordOf 0x6C00 m d.bits r.bits] [d, r]
        (fun s => resultZS d (BitVec.ofNat 16 (65535 - (s.reg r).toNat)) s)
      ∧ formRule (.negReg m d r) [wordOf 0x7000 m d.bits r.bits] [d, r]
        (fun s => resultCZS d (0 - s.reg r) (decide (s.reg r = 0)) s)

/-- ANL, ORL and XOR, register and immediate: Z and S of the result, C kept (43_shift_logic.md R187 to R192; Trap(1) by
the spec's decision D18: log 23). -/
def Obligations.BitwiseLogic : Prop :=
  ∀ (m : CondMode) (d r : Reg) (imm : Word),
    formRule (.anlReg m d r) [wordOf 0x7400 m d.bits r.bits] [d, r]
        (fun s => resultZS d (s.reg d &&& s.reg r) s)
      ∧ formRule (.anlImm m d r imm) [wordOf 0x7600 m d.bits r.bits, imm] [d]
        (fun s => resultZS d (s.reg d &&& imm) s)
      ∧ formRule (.orlReg m d r) [wordOf 0x7800 m d.bits r.bits] [d, r]
        (fun s => resultZS d (s.reg d ||| s.reg r) s)
      ∧ formRule (.orlImm m d r imm) [wordOf 0x7A00 m d.bits r.bits, imm] [d]
        (fun s => resultZS d (s.reg d ||| imm) s)
      ∧ formRule (.xorReg m d r) [wordOf 0x7C00 m d.bits r.bits] [d, r]
        (fun s => resultZS d (s.reg d ^^^ s.reg r) s)
      ∧ formRule (.xorImm m d r imm) [wordOf 0x7E00 m d.bits r.bits, imm] [d]
        (fun s => resultZS d (s.reg d ^^^ imm) s)

/-! ## Flag control, calls, compare and test -/

/-- R88 whole: as a flag index the dst field names a bit of SW by its bits 1:0 and the new value by its bit 2, for SFL and
no other form; in kernel mode SFL gives exactly that bit that value, index 6 included. -/
def Obligations.FlagIndexTable : Prop :=
  ([0, 1, 2, 3, 4, 5, 6, 7] : List (BitVec 3)).map FlagIndex.ofBits
      = [.clearC, .clearZ, .clearS, .clearI, .setC, .setZ, .setS, .setI]
    ∧ (∀ i : Instr, (fieldUse i).1 = .flagIndex ↔ ∃ m x r, i = .sfl m x r)
    ∧ ∀ (m : CondMode) (b : BitVec 3) (r : Reg) (s : State), condPass m s.sw = true → s.user = false →
      ∃ t, exec (.sfl m (FlagIndex.ofBits b) r) s = .next t
        ∧ ∀ j, t.sw.getLsbD j = if j = b.toNat % 4 then decide (4 ≤ b.toNat) else s.sw.getLsbD j

/-- SFL in both modes: exactly the addressed bit, but the I flag keeps its value in user mode, with no trap
(44_control.md R201; the spec's decision D16: log 22). -/
def Obligations.SetOrClearFlag : Prop :=
  ∀ (m : CondMode) (b : BitVec 3) (r : Reg),
    formRule (.sfl m (FlagIndex.ofBits b) r) [wordOf 0x8000 m b r.bits] []
      (fun s t =>
        (if s.user = true ∧ b.toNat % 4 = 3 then t.sw = s.sw
          else t.sw.getLsbD (b.toNat % 4) = decide (4 ≤ b.toNat))
        ∧ changesOnly [] [b.toNat % 4] [] s t)

/-- SEX: the address of the next instruction is pushed, then the jump; the register form reads its target after the push,
so that the same register in both fields jumps to the decremented pointer (44_control.md R203, R204; the spec's decision
D18 for Trap(1): log 23). -/
def Obligations.SubroutineCalls : Prop :=
  ∀ (m : CondMode) (d r : Reg) (imm : Word),
    formRule (.sexReg m d r) [wordOf 0x8400 m d.bits r.bits] [d, r]
        (fun s t => t.load (s.reg d) = s.reg .r7
          ∧ t.reg .r7 = (if r = d then s.reg d - 1 else s.reg r)
          ∧ (d ≠ .r7 → t.reg d = s.reg d - 1) ∧ changesOnly [d, .r7] [] [s.reg d] s t)
      ∧ formRule (.sexImm m d r imm) [wordOf 0x8600 m d.bits r.bits, imm] [d]
        (fun s t => t.load (s.reg d) = s.reg .r7 ∧ t.reg .r7 = imm
          ∧ (d ≠ .r7 → t.reg d = s.reg d - 1) ∧ changesOnly [d, .r7] [] [s.reg d] s t)

/-- CMP sets C, Z and S as SUB would, TST sets Z and S as ANL would; neither writes a register or memory, so neither jumps
with R7 as its destination field (45_compare_test.md R215 to R219; the spec's decisions D15, D18: log 21, 23). -/
def Obligations.CompareAndTest : Prop :=
  ∀ (m : CondMode) (d r : Reg) (imm : Word),
    formRule (.cmpReg m d r) [wordOf 0x8C00 m d.bits r.bits] [d, r]
        (fun s t => flagsCZS (decide ((s.reg r).toNat ≤ (s.reg d).toNat)) (s.reg d - s.reg r) t
          ∧ changesOnly [] [0, 1, 2] [] s t)
      ∧ formRule (.cmpImm m d r imm) [wordOf 0x8E00 m d.bits r.bits, imm] [d]
        (fun s t => flagsCZS (decide (imm.toNat ≤ (s.reg d).toNat)) (s.reg d - imm) t
          ∧ changesOnly [] [0, 1, 2] [] s t)
      ∧ formRule (.tstReg m d r) [wordOf 0x9000 m d.bits r.bits] [d, r]
        (fun s t => flagsZS (s.reg d &&& s.reg r) t ∧ changesOnly [] [1, 2] [] s t)
      ∧ formRule (.tstImm m d r imm) [wordOf 0x9200 m d.bits r.bits, imm] [d]
        (fun s t => flagsZS (s.reg d &&& imm) t ∧ changesOnly [] [1, 2] [] s t)

/-! ## The I/O bus -/

/-- The I/O writes: in kernel mode exactly one bus write with the address and the word, and nothing else; in user mode
Trap(1) (46_io.md R226 to R229; the spec's decisions D24, D28: log 9, 25). -/
def Obligations.IoWrites : Prop :=
  ∀ (m : CondMode) (d r : Reg) (imm : Word),
    let wrote (a v : State → Word) : State → State → Prop := fun s t =>
      t.ioTrace = s.ioTrace ++ [.write (a s) (v s)] ∧ (∀ x, t.reg x = s.reg x) ∧ t.sw = s.sw ∧ t.mem = s.mem
        ∧ t.ioScript = s.ioScript ∧ t.irqScript = s.irqScript ∧ t.draws = s.draws
    ioRule (.outAbsReg m d r imm) [wordOf 0x3600 m d.bits r.bits, imm] (wrote (fun _ => imm) (fun s => s.reg r))
      ∧ ioRule (.outIndReg m d r) [wordOf 0x9400 m d.bits r.bits] (wrote (fun s => s.reg d) (fun s => s.reg r))
      ∧ ioRule (.outIndImm m d r imm) [wordOf 0x9600 m d.bits r.bits, imm] (wrote (fun s => s.reg d) (fun _ => imm))

/-- The I/O reads: in kernel mode exactly one bus read of the address; the register gets whatever word the environment
answers with, and nothing else of the CPU changes; in user mode Trap(1) (46_io.md R225, R226, R230, R231; the answer is
the script's next entry, or a free value after its end: log 8). -/
def Obligations.IoReads : Prop :=
  ∀ (m : CondMode) (d r : Reg) (imm : Word),
    let got (a : State → Word) : State → State → Prop := fun s t =>
      t.ioTrace = s.ioTrace ++ [.read (a s) (t.reg d)]
        ∧ (∀ v rest, s.ioScript = v :: rest → t.reg d = v ∧ t.ioScript = rest ∧ t.draws = s.draws)
        ∧ (s.ioScript = [] → t.ioScript = [] ∧ t.draws = s.draws + 1)
        ∧ sameRegsExcept [d] s t ∧ t.sw = s.sw ∧ t.mem = s.mem ∧ t.irqScript = s.irqScript
    ioRule (.inRegInd m d r) [wordOf 0x9800 m d.bits r.bits] (got (fun s => s.reg r))
      ∧ ioRule (.inRegAbs m d r imm) [wordOf 0x9A00 m d.bits r.bits, imm] (got (fun _ => imm))

/-! ## Memory and runs -/

/-- Memory is what its octets read as: two memories in canonical form that read the same everywhere are the same data
(the model's representation of 20_memory.md R50, log 2). -/
def Obligations.EqualReadsMeanEqualMemories : Prop :=
  ∀ m n : Memory, m.wf = true → n.wf = true → (∀ a, m.byteAt a = n.byteAt a) → m = n

/-- A store is seen by the very next fetch: `MOV [dst], src` with the address of the next instruction in dst makes the
stored word the next instruction, dst = R7 included (20_memory.md R67, 40_mov.md R116; the spec's decision D7: log 29). -/
def Obligations.StoreIsSeenByTheNextFetch : Prop :=
  ∀ (m : CondMode) (d r : Reg) (s : State), condPass m s.sw = true → (s.user = true → d ≠ .r6 ∧ r ≠ .r6) →
    s.reg d = s.reg .r7 →
    ∃ t, exec (.movIndReg m d r) s = .next t
      ∧ (fetch t).1 = decodeWords (s.reg r) (s.load (s.reg .r7 + 1))

/-- The jump to itself, `ASS $R7, 0xFFFE`, is a fixed point of the step with interrupts disabled, at every address, the
last two words included, where it wraps (42_arithmetic.md R167, 60_exceptions.md R324, 70_reset_and_hazards.md R358; the
wrap is the spec's decision D2: log 12). -/
def Obligations.JumpToSelfNeverLeaves : Prop :=
  ∀ s : State, flagI s.sw = false → s.load s.pc = 0x4A38 → s.load (s.pc + 1) = 0xFFFE → s.stuckForever

/-! ## The assembler -/

/-- What the assembler's selection gives is well-formed, carries the prefix it was given, and is never an unused pair
(47_assembler.md R242, R243; 0 in unused fields is the spec's decision D12: log 18). -/
def Obligations.SelectedFormsAreWellFormed : Prop :=
  ∀ (m : CondMode) (mn : Asm.Mnemonic) (ops : List Asm.HwOperand) (i : Instr),
    Asm.selectForm m mn ops = some i → wellFormed i = true ∧ i.mode = m ∧ isUnused i = false

/-- Every well-formed instruction of the instruction table can be written: some mnemonic and operands select exactly it
(47_assembler.md R242, 30_encoding.md R92). -/
def Obligations.EveryFormCanBeAssembled : Prop :=
  ∀ i : Instr, wellFormed i = true → isUnused i = false →
    ∃ (mn : Asm.Mnemonic) (ops : List Asm.HwOperand), Asm.selectForm i.mode mn ops = some i

/-- `HOP x` reaches the label `x`: whatever name `x` is, where it stands for the address `label`, the operand spelled by
the bare name is the label operand, and the expansion `ASS $R7, x-$$`, assembled with `$$` the address of the next
instruction (and any `$`, which the expansion does not use) and executed there, sets R7 to the label and changes nothing
else (47_assembler.md R253, R262, R263, 10_state.md R25: log 28). That a bare name after HOP is a label, and not the
offset itself, the source does not say: it is the model's choice (log 33). -/
def Obligations.HopReachesItsLabel : Prop :=
  ∀ (m : CondMode) (userSp : Bool) (x : Asm.Name) (label : Word) (env : Asm.Name → Option Asm.Binding) (here : Int)
    (s : State),
    env x = some (.value label.toNat) → condPass m s.sw = true →
    ∃ o e v i t, Asm.parseOperandOf .hop [.expr (.name x)] = some o
      ∧ o = .label (.name x)
      ∧ Asm.immExpr (Asm.expand .hop [o]).2 = some e
      ∧ Asm.eval Asm.evalFuel env here (s.reg .r7).toNat e = .ok v
      ∧ Asm.assembleWith userSp m .hop [o] v = some i
      ∧ exec i s = .next t ∧ valueOnly .r7 label s t
end

