-- ==== Sys2Proof/Laws/Assembler.lean ====
section
/-! SUPPORT. What the assembler's shared operations can do. -/

namespace Sys2Proof.Asm

/-- A word's number assembles to that word. -/
@[simp] theorem toWord_toNat (w : Word) : toWord (w.toNat : Int) = w := by simp [toWord]

/-- Two errors give the linker's only where both are the linker's (spec/47_assembler.md R247). -/
theorem EvalError.both_atLinkTime {r q : EvalError} {x : Name} (h : r.both q = .atLinkTime x) :
    (∃ y, r = .atLinkTime y) ∧ q = .atLinkTime x := by
  cases r <;> simp_all [EvalError.both]

@[simp] theorem AsmState.place_addr (p : AsmState) : p.place.addr = p.addr := rfl
@[simp] theorem AsmState.place_out (p : AsmState) : p.place.out = p.out := rfl
@[simp] theorem AsmState.place_pending (p : AsmState) : p.place.pending = [] := rfl
@[simp] theorem AsmState.emit_addr (p : AsmState) (w : Emitted) : (p.emit w).addr = p.addr + 1 := rfl
@[simp] theorem AsmState.emit_out (p : AsmState) (w : Emitted) :
    (p.emit w).out = p.out ++ [(p.addr, p.sect, w)] := rfl

/-- Only the numbers 0 to 7 are flag indices (spec/47_assembler.md R241). -/
theorem flagIndexOfValue_isSome (v : Int) : (flagIndexOfValue v).isSome = true ↔ 0 ≤ v ∧ v < 8 := by
  unfold flagIndexOfValue
  split <;> simp_all

/-- The names that are settled are what a pass that knows them finds. -/
theorem settle_fixed {start : AsmState} {ls : List Line} {known : Symbols} :
    ∀ {fuel : Nat} {first : Symbols}, settle start ls fuel first = .ok known →
      ∃ p, passLines false known start ls = .ok p ∧ p.found = known
  | 0, _, h => by simp [settle] at h
  | fuel + 1, first, h => by
    unfold settle at h
    split at h
    · cases h
    · next p hp =>
      split at h
      · next hf => cases h; exact ⟨p, hp, hf⟩
      · exact settle_fixed h

end Sys2Proof.Asm
end

