-- ==== Sys2Proof/Laws/Encoding.lean ====
section
/-! SUPPORT. The fields of a packed word are the fields it was packed from, and a word is the packing of its
fields: what the proofs about the encoder and the decoder cite. -/

namespace Sys2Proof

/-! ## Enumerations and their bits -/

@[simp] theorem Reg.ofBits_bits (r : Reg) : Reg.ofBits r.bits = r := by cases r <;> rfl
@[simp] theorem Reg.bits_ofBits (b : BitVec 3) : (Reg.ofBits b).bits = b := by decide +revert
@[simp] theorem CondMode.ofBits_bits (m : CondMode) : CondMode.ofBits m.bits = m := by cases m <;> rfl
@[simp] theorem CondMode.bits_ofBits (b : BitVec 3) : (CondMode.ofBits b).bits = b := by decide +revert
@[simp] theorem FlagIndex.ofBits_bits (i : FlagIndex) : FlagIndex.ofBits i.bits = i := by cases i <;> rfl
@[simp] theorem FlagIndex.bits_ofBits (b : BitVec 3) : (FlagIndex.ofBits b).bits = b := by decide +revert

/-! ## Packing and splitting -/

section
variable (op : BitVec 6) (hasImm : Bool) (m dst src : BitVec 3)

@[simp] theorem opOf_packFields : opOf (packFields op hasImm m dst src) = op := by
  unfold opOf packFields
  ext i hi
  simp
  interval_cases i <;> simp

@[simp] theorem hasImmOf_packFields : hasImmOf (packFields op hasImm m dst src) = hasImm := by
  simp [hasImmOf, packFields]

@[simp] theorem modeOf_packFields : modeOf (packFields op hasImm m dst src) = CondMode.ofBits m := by
  have h : (packFields op hasImm m dst src).extractLsb' 6 3 = m := by
    unfold packFields
    ext i hi
    simp
    interval_cases i <;> simp
  rw [modeOf, h]

@[simp] theorem dstOf_packFields : dstOf (packFields op hasImm m dst src) = dst := by
  unfold dstOf packFields
  ext i hi
  simp
  interval_cases i <;> simp

@[simp] theorem srcOf_packFields : srcOf (packFields op hasImm m dst src) = src := by
  unfold srcOf packFields
  ext i hi
  simp
  interval_cases i <;> simp

end

/-- Every word is the packing of its own fields: no bit of a word is outside the format (R97). -/
theorem packFields_split (iw : Word) :
    packFields (opOf iw) (hasImmOf iw) (modeOf iw).bits (dstOf iw) (srcOf iw) = iw := by
  rw [modeOf, CondMode.bits_ofBits]
  unfold packFields opOf hasImmOf dstOf srcOf
  ext i hi
  interval_cases i <;> simp

/-- What splitting the words of an instruction gives. -/
theorem splitFields_encodeWord (i : Instr) :
    splitFields (encodeWord i) (immOf i)
      = { fieldsOf i with imm := if (fieldsOf i).hasImm then (fieldsOf i).imm else 0 } := by
  simp only [splitFields, encodeWord, immOf, opOf_packFields, hasImmOf_packFields, modeOf_packFields,
    dstOf_packFields, srcOf_packFields, CondMode.ofBits_bits]

/-- The opcode map has a row for each of the 64 opcodes. -/
theorem opcodeMap_length : opcodeMap.length = 64 := by decide

end Sys2Proof
end

