-- ==== Sys2Proof/Laws/State.lean ====
section
/-! SUPPORT. One lemma per field per update of the state, each true by unfolding the update once, so that no
later proof unfolds a record update. -/

namespace Sys2Proof.Machine

variable (s : State) (r r' : Reg) (v w a : Word)

/-! ## The register file -/

@[simp] theorem RegFile.get_set_same (f : RegFile) (r : Reg) (v : Word) : (f.set r v).get r = v := by
  cases r <;> rfl

theorem RegFile.get_set (f : RegFile) (r r' : Reg) (v : Word) :
    (f.set r v).get r' = if r' = r then v else f.get r' := by
  cases r <;> cases r' <;> rfl

theorem RegFile.ext_get {f g : RegFile} (h : ∀ r, f.get r = g.get r) : f = g := by
  obtain ⟨a0, a1, a2, a3, a4, a5, a6, a7⟩ := f
  obtain ⟨b0, b1, b2, b3, b4, b5, b6, b7⟩ := g
  have h0 := h .r0; have h1 := h .r1; have h2 := h .r2; have h3 := h .r3
  have h4 := h .r4; have h5 := h .r5; have h6 := h .r6; have h7 := h .r7
  simp only [RegFile.get] at h0 h1 h2 h3 h4 h5 h6 h7
  subst h0 h1 h2 h3 h4 h5 h6 h7
  rfl

theorem RegFile.set_set (f : RegFile) (r : Reg) (v w : Word) : (f.set r v).set r w = f.set r w := by
  cases r <;> rfl

theorem RegFile.set_get (f : RegFile) (r : Reg) : f.set r (f.get r) = f := by
  cases r <;> rfl

/-! ## setReg -/

@[simp] theorem State.reg_setReg_same : (s.setReg r v).reg r = v := RegFile.get_set_same _ _ _

theorem State.reg_setReg : (s.setReg r v).reg r' = if r' = r then v else s.reg r' :=
  RegFile.get_set _ _ _ _

@[simp] theorem State.reg_setReg_of_ne (h : r' ≠ r) : (s.setReg r v).reg r' = s.reg r' := by
  rw [State.reg_setReg, if_neg h]

@[simp] theorem State.setReg_sw : (s.setReg r v).sw = s.sw := rfl
@[simp] theorem State.setReg_mem : (s.setReg r v).mem = s.mem := rfl
@[simp] theorem State.setReg_ioTrace : (s.setReg r v).ioTrace = s.ioTrace := rfl
@[simp] theorem State.setReg_irqScript : (s.setReg r v).irqScript = s.irqScript := rfl
@[simp] theorem State.setReg_ioScript : (s.setReg r v).ioScript = s.ioScript := rfl
@[simp] theorem State.setReg_draws : (s.setReg r v).draws = s.draws := rfl
@[simp] theorem State.setReg_load : (s.setReg r v).load a = s.load a := rfl
@[simp] theorem State.setReg_user : (s.setReg r v).user = s.user := rfl

theorem State.setReg_setReg : (s.setReg r v).setReg r w = s.setReg r w := by
  simp only [State.setReg, RegFile.set_set]

/-! ## setPc -/

theorem State.pc_eq : s.pc = s.reg .r7 := rfl
theorem State.setPc_eq : s.setPc v = s.setReg .r7 v := rfl
@[simp] theorem State.setPc_pc : (s.setPc v).pc = v := rfl
@[simp] theorem State.setPc_sw : (s.setPc v).sw = s.sw := rfl
@[simp] theorem State.setPc_mem : (s.setPc v).mem = s.mem := rfl
@[simp] theorem State.setPc_ioTrace : (s.setPc v).ioTrace = s.ioTrace := rfl
@[simp] theorem State.setPc_irqScript : (s.setPc v).irqScript = s.irqScript := rfl
@[simp] theorem State.setPc_ioScript : (s.setPc v).ioScript = s.ioScript := rfl
@[simp] theorem State.setPc_draws : (s.setPc v).draws = s.draws := rfl
@[simp] theorem State.setPc_load : (s.setPc v).load a = s.load a := rfl
@[simp] theorem State.setPc_user : (s.setPc v).user = s.user := rfl

@[simp] theorem State.reg_setPc_of_ne (h : r ≠ .r7) : (s.setPc v).reg r = s.reg r :=
  State.reg_setReg_of_ne s .r7 r v h

/-! ## setSw -/

@[simp] theorem State.setSw_sw : (s.setSw v).sw = v := rfl
@[simp] theorem State.setSw_regs : (s.setSw v).regs = s.regs := rfl
@[simp] theorem State.setSw_reg : (s.setSw v).reg r = s.reg r := rfl
@[simp] theorem State.setSw_pc : (s.setSw v).pc = s.pc := rfl
@[simp] theorem State.setSw_mem : (s.setSw v).mem = s.mem := rfl
@[simp] theorem State.setSw_ioTrace : (s.setSw v).ioTrace = s.ioTrace := rfl
@[simp] theorem State.setSw_irqScript : (s.setSw v).irqScript = s.irqScript := rfl
@[simp] theorem State.setSw_ioScript : (s.setSw v).ioScript = s.ioScript := rfl
@[simp] theorem State.setSw_draws : (s.setSw v).draws = s.draws := rfl
@[simp] theorem State.setSw_load : (s.setSw v).load a = s.load a := rfl
@[simp] theorem State.setSw_user : (s.setSw v).user = flagU v := rfl

/-! ## store -/

@[simp] theorem State.store_regs : (s.store a v).regs = s.regs := rfl
@[simp] theorem State.store_reg : (s.store a v).reg r = s.reg r := rfl
@[simp] theorem State.store_pc : (s.store a v).pc = s.pc := rfl
@[simp] theorem State.store_sw : (s.store a v).sw = s.sw := rfl
@[simp] theorem State.store_mem : (s.store a v).mem = s.mem.writeWord a v := rfl
@[simp] theorem State.store_ioTrace : (s.store a v).ioTrace = s.ioTrace := rfl
@[simp] theorem State.store_irqScript : (s.store a v).irqScript = s.irqScript := rfl
@[simp] theorem State.store_ioScript : (s.store a v).ioScript = s.ioScript := rfl
@[simp] theorem State.store_draws : (s.store a v).draws = s.draws := rfl
@[simp] theorem State.store_user : (s.store a v).user = s.user := rfl

/-! ## ioWrite -/

@[simp] theorem State.ioWrite_regs : (s.ioWrite a v).regs = s.regs := rfl
@[simp] theorem State.ioWrite_reg : (s.ioWrite a v).reg r = s.reg r := rfl
@[simp] theorem State.ioWrite_pc : (s.ioWrite a v).pc = s.pc := rfl
@[simp] theorem State.ioWrite_sw : (s.ioWrite a v).sw = s.sw := rfl
@[simp] theorem State.ioWrite_mem : (s.ioWrite a v).mem = s.mem := rfl
@[simp] theorem State.ioWrite_ioTrace : (s.ioWrite a v).ioTrace = s.ioTrace ++ [.write a v] := rfl
@[simp] theorem State.ioWrite_irqScript : (s.ioWrite a v).irqScript = s.irqScript := rfl
@[simp] theorem State.ioWrite_ioScript : (s.ioWrite a v).ioScript = s.ioScript := rfl
@[simp] theorem State.ioWrite_draws : (s.ioWrite a v).draws = s.draws := rfl

/-- Two states with the same registers, SW, memory and environment fields are equal. -/
theorem State.ext_fields {s t : State} (hr : ∀ r, t.reg r = s.reg r) (hw : t.sw = s.sw) (hm : t.mem = s.mem)
    (ht : t.ioTrace = s.ioTrace) (hq : t.irqScript = s.irqScript) (hi : t.ioScript = s.ioScript)
    (hd : t.draws = s.draws) : t = s := by
  obtain ⟨f, w, m, tr, iq, io, d⟩ := s
  obtain ⟨f', w', m', tr', iq', io', d'⟩ := t
  simp only at hw hm ht hq hi hd
  subst hw hm ht hq hi hd
  rw [RegFile.ext_get (f := f') (g := f) hr]

end Sys2Proof.Machine
end

