-- ==== Sys2Proof/Laws/Interrupts.lean ====
section
/-! SUPPORT. What sampling the interrupts can do. -/

namespace Sys2Proof.Machine

theorem mem_irqMembers (p : BitVec 8) (k : Fin 8) : k ∈ irqMembers p ↔ p.getLsbD k.val = true := by
  unfold irqMembers
  rw [List.mem_filter]
  refine ⟨fun h => h.2, fun h => ⟨?_, h⟩⟩
  fin_cases k <;> decide

/-- Taking the levels touches nothing but the script and the counter. -/
theorem State.takeLevels_frame (s : State) :
    s.takeLevels.2.regs = s.regs ∧ s.takeLevels.2.sw = s.sw ∧ s.takeLevels.2.mem = s.mem
      ∧ s.takeLevels.2.ioTrace = s.ioTrace ∧ s.takeLevels.2.ioScript = s.ioScript := by
  unfold State.takeLevels
  cases s.irqScript <;> simp

/-- What taking the levels can do, whole: the script's next entry while there is one, and a free value past its end. -/
theorem State.takeLevels_eq (s : State) :
    s.takeLevels = (s.irqScript.headD (Config.irqLevels s.draws),
      { s with
        irqScript := s.irqScript.tail
        draws := if s.irqScript = [] then s.draws + 1 else s.draws }) := by
  obtain ⟨r, w, m, t, script, io, n⟩ := s
  cases script <;> rfl

/-- Only a member of the set is selected. -/
theorem selectIrq_mem {p : BitVec 8} {s s1 : State} {k : Fin 8} (h : selectIrq p s = (some k, s1)) :
    p.getLsbD k.val = true := by
  unfold selectIrq at h
  have hm : ∀ j, j ∈ irqMembers p → p.getLsbD j.val = true := fun j hj => (mem_irqMembers p j).mp hj
  split at h
  · simp at h
  · next j heq =>
    rw [heq] at hm
    simp only [Prod.mk.injEq, Option.some.injEq] at h
    exact h.1 ▸ hm j (by simp)
  · next j l _ heq =>
    rw [heq] at hm
    simp only [Prod.mk.injEq, Option.some.injEq] at h
    by_cases hc : p.getLsbD (Config.irqChoice s.draws p).val = true
    · rw [if_pos hc] at h; exact h.1 ▸ hc
    · rw [if_neg hc] at h; exact h.1 ▸ hm j (by simp)

/-- Some member is selected unless the set is empty. -/
theorem selectIrq_none {p : BitVec 8} {s s1 : State} (h : selectIrq p s = (none, s1)) :
    (∀ k : Fin 8, p.getLsbD k.val = false) ∧ s1 = s := by
  unfold selectIrq at h
  split at h
  · next heq =>
    simp only [Prod.mk.injEq, true_and] at h
    refine ⟨fun k => ?_, h.symm⟩
    have := mem_irqMembers p k
    rw [heq] at this
    simpa using this
  · simp at h
  · simp at h

/-- Selecting touches nothing but the counter. -/
theorem selectIrq_frame (p : BitVec 8) (s : State) :
    (selectIrq p s).2.regs = s.regs ∧ (selectIrq p s).2.sw = s.sw ∧ (selectIrq p s).2.mem = s.mem
      ∧ (selectIrq p s).2.ioTrace = s.ioTrace ∧ (selectIrq p s).2.ioScript = s.ioScript := by
  unfold selectIrq
  split <;> simp

/-- Sampling leaves registers, SW, memory and the I/O bus alone. -/
theorem sampleInterrupt_frame (s : State) :
    (sampleInterrupt s).2.regs = s.regs ∧ (sampleInterrupt s).2.sw = s.sw
      ∧ (sampleInterrupt s).2.mem = s.mem ∧ (sampleInterrupt s).2.ioTrace = s.ioTrace
      ∧ (sampleInterrupt s).2.ioScript = s.ioScript := by
  unfold sampleInterrupt
  by_cases h : flagI s.sw = true
  · simp only [h, if_true]
    have h1 := s.takeLevels_frame
    have h2 := selectIrq_frame (s.takeLevels.1 &&& irqMask s.sw) s.takeLevels.2
    exact ⟨h2.1.trans h1.1, h2.2.1.trans h1.2.1, h2.2.2.1.trans h1.2.2.1, h2.2.2.2.1.trans h1.2.2.2.1,
      h2.2.2.2.2.trans h1.2.2.2.2⟩
  · simp [h]

/-- With interrupts disabled, sampling does nothing at all. -/
theorem sampleInterrupt_disabled {s : State} (h : flagI s.sw = false) : sampleInterrupt s = (none, s) := by
  simp [sampleInterrupt, h]

/-- An interrupt that is taken was enabled as a whole, asserted, and not masked. -/
theorem sampleInterrupt_some {s s1 : State} {k : Fin 8} (h : sampleInterrupt s = (some k, s1)) :
    flagI s.sw = true ∧ (s.takeLevels.1 &&& irqMask s.sw).getLsbD k.val = true := by
  unfold sampleInterrupt at h
  by_cases hI : flagI s.sw = true
  · simp only [hI, if_true] at h
    exact ⟨hI, selectIrq_mem h⟩
  · simp [hI] at h

/-- When none is taken, none was to be taken. -/
theorem sampleInterrupt_none {s s1 : State} (h : sampleInterrupt s = (none, s1)) :
    flagI s.sw = false ∨ ∀ k : Fin 8, (s.takeLevels.1 &&& irqMask s.sw).getLsbD k.val = false := by
  unfold sampleInterrupt at h
  by_cases hI : flagI s.sw = true
  · simp only [hI, if_true] at h
    exact .inr (selectIrq_none h).1
  · exact .inl (by simpa using hI)

end Sys2Proof.Machine
end

