-- ==== Sys2Proof/Laws/Flags.lean ====
section
/-! SUPPORT. What each flag computation gives, bit by bit: later proofs cite these and unfold nothing. -/

namespace Sys2Proof.Machine

/-- `setBit` gives one bit its value and keeps the others. -/
theorem getLsbD_setBit (sw : Word) {i : Nat} (hi : i < 16) (b : Bool) (j : Nat) :
    (setBit sw i b).getLsbD j = if j = i then b else sw.getLsbD j := by
  cases b
  · by_cases h : j = i
    · subst h; simp [setBit, hi]
    · by_cases hj : j < 16
      · simp only [setBit, Bool.false_eq_true, if_false, if_neg h]
        rw [BitVec.getLsbD_and, BitVec.getLsbD_not, BitVec.getLsbD_shiftLeft]
        by_cases hlt : j < i
        · simp [hj, hlt]
        · have : j - i ≠ 0 := by omega
          simp [hj, hlt, BitVec.getLsbD_one, this]
      · rw [BitVec.getLsbD_of_ge _ _ (by omega), BitVec.getLsbD_of_ge _ _ (by omega)]; simp [h]
  · by_cases h : j = i
    · subst h; simp [setBit, hi]
    · by_cases hj : j < 16
      · simp only [setBit, if_true, if_neg h]
        rw [BitVec.getLsbD_or, BitVec.getLsbD_shiftLeft]
        by_cases hlt : j < i
        · simp [hj, hlt]
        · have : j - i ≠ 0 := by omega
          simp [hj, hlt, BitVec.getLsbD_one, this]
      · rw [BitVec.getLsbD_of_ge _ _ (by omega), BitVec.getLsbD_of_ge _ _ (by omega)]; simp [h]

/-- `setZS`, bit by bit. -/
theorem getLsbD_setZS (sw r : Word) (j : Nat) :
    (setZS sw r).getLsbD j
      = if j = 1 then r == 0 else if j = 2 then r.getLsbD 15 else sw.getLsbD j := by
  rw [setZS, getLsbD_setBit _ (by omega), getLsbD_setBit _ (by omega)]
  by_cases h : j = 1
  · simp [h]
  · by_cases h2 : j = 2 <;> simp [h, h2]

/-- `setCZS`, bit by bit. -/
theorem getLsbD_setCZS (sw r : Word) (c : Bool) (j : Nat) :
    (setCZS sw r c).getLsbD j
      = if j = 0 then c else if j = 1 then r == 0 else if j = 2 then r.getLsbD 15 else sw.getLsbD j := by
  rw [setCZS, getLsbD_setZS, getLsbD_setBit _ (by omega)]
  by_cases h : j = 0
  · simp [h]
  · simp [h]

@[simp] theorem flagC_setCZS (sw r : Word) (c : Bool) : flagC (setCZS sw r c) = c := by
  rw [flagC, getLsbD_setCZS]; rfl
@[simp] theorem flagZ_setCZS (sw r : Word) (c : Bool) : flagZ (setCZS sw r c) = (r == 0) := by
  rw [flagZ, getLsbD_setCZS]; rfl
@[simp] theorem flagS_setCZS (sw r : Word) (c : Bool) : flagS (setCZS sw r c) = r.getLsbD 15 := by
  rw [flagS, getLsbD_setCZS]; rfl
@[simp] theorem flagI_setCZS (sw r : Word) (c : Bool) : flagI (setCZS sw r c) = flagI sw := by
  rw [flagI, getLsbD_setCZS]; rfl
@[simp] theorem flagU_setCZS (sw r : Word) (c : Bool) : flagU (setCZS sw r c) = flagU sw := by
  rw [flagU, getLsbD_setCZS]; rfl

@[simp] theorem flagC_setZS (sw r : Word) : flagC (setZS sw r) = flagC sw := by
  rw [flagC, getLsbD_setZS]; rfl
@[simp] theorem flagZ_setZS (sw r : Word) : flagZ (setZS sw r) = (r == 0) := by
  rw [flagZ, getLsbD_setZS]; rfl
@[simp] theorem flagS_setZS (sw r : Word) : flagS (setZS sw r) = r.getLsbD 15 := by
  rw [flagS, getLsbD_setZS]; rfl
@[simp] theorem flagI_setZS (sw r : Word) : flagI (setZS sw r) = flagI sw := by
  rw [flagI, getLsbD_setZS]; rfl
@[simp] theorem flagU_setZS (sw r : Word) : flagU (setZS sw r) = flagU sw := by
  rw [flagU, getLsbD_setZS]; rfl

/-- A bit of a 16-bit constant mask, for the proofs about `writeSw`. -/
theorem getLsbD_writeSw (sw v : Word) {j : Nat} (hj : j < 16) :
    (writeSw sw v).getLsbD j
      = if flagU sw then (if j < 3 then v.getLsbD j else sw.getLsbD j)
        else (v.getLsbD j && decide (j ≠ 6 ∧ j ≠ 7)) := by
  unfold writeSw
  cases flagU sw
  · simp only [Bool.false_eq_true, if_false, BitVec.getLsbD_and]
    interval_cases j <;> simp
  · simp only [if_true, BitVec.getLsbD_or, BitVec.getLsbD_and]
    interval_cases j <;> simp

/-- `SFL` changes at most the bit its index names. -/
theorem getLsbD_applyFlagIndex (sw : Word) (idx : FlagIndex) (j : Nat) :
    (applyFlagIndex sw idx).getLsbD j
      = if j = flagBit idx ∧ ¬ (flagBit idx = 3 ∧ flagU sw = true) then flagValue idx else sw.getLsbD j := by
  have hlt : flagBit idx < 16 := by cases idx <;> decide
  unfold applyFlagIndex
  by_cases h : flagBit idx = 3 ∧ flagU sw = true
  · simp [h]
  · rw [if_neg (by simpa using h), getLsbD_setBit _ hlt]
    simp [h]

/-- The sum of the adder is the exact sum modulo 65536, and its carry says whether the exact sum overflows. -/
theorem adder_spec (a b : Word) (cin : Bool) :
    (adder a b cin).1.toNat + 65536 * (adder a b cin).2.toNat = a.toNat + b.toNat + cin.toNat := by
  have ha : a.toNat < 65536 := a.isLt
  have hb : b.toNat < 65536 := b.isLt
  have hc : cin.toNat ≤ 1 := Bool.toNat_le cin
  simp only [adder, BitVec.toNat_ofNat]
  by_cases h : 65536 ≤ a.toNat + b.toNat + cin.toNat
  · simp only [h, decide_true, Bool.toNat_true]; omega
  · simp only [h, decide_false, Bool.toNat_false]; omega

end Sys2Proof.Machine
end

