-- ==== Sys2Proof/Laws/Memory.lean ====
section
/-! SUPPORT. The laws of memory: read after write, everything else is unchanged, every write keeps the
canonical form. -/

namespace Sys2Proof.Machine

/-! ## Octet helpers -/

@[simp] theorem lowByte_wordOfBytes (hi lo : Byte) : lowByte (wordOfBytes hi lo) = lo := by
  unfold lowByte wordOfBytes
  ext i hi
  interval_cases i <;> simp

@[simp] theorem highByte_wordOfBytes (hi lo : Byte) : highByte (wordOfBytes hi lo) = hi := by
  unfold highByte wordOfBytes
  ext i hi
  interval_cases i <;> simp

@[simp] theorem wordOfBytes_high_low (w : Word) : wordOfBytes (highByte w) (lowByte w) = w := by
  unfold highByte lowByte wordOfBytes
  ext i hi
  interval_cases i <;> simp

/-! ## The list of cells -/

theorem lookupByte_dropCell_same (n : Nat) (cs : List Host.Cell) :
    lookupByte n (dropCell n cs) = unlistedByte := by
  induction cs with
  | nil => rfl
  | cons c cs ih =>
    obtain ⟨k, b⟩ := c
    by_cases h : k = n
    · simpa [dropCell, h] using ih
    · have : dropCell n ((k, b) :: cs) = (k, b) :: dropCell n cs := by simp [dropCell, h]
      rw [this, lookupByte, if_neg h, ih]

theorem lookupByte_dropCell_ne {n k : Nat} (h : k ≠ n) (cs : List Host.Cell) :
    lookupByte k (dropCell n cs) = lookupByte k cs := by
  induction cs with
  | nil => rfl
  | cons c cs ih =>
    obtain ⟨j, b⟩ := c
    by_cases hj : j = n
    · have : dropCell n ((j, b) :: cs) = dropCell n cs := by simp [dropCell, hj]
      rw [this, ih, lookupByte, if_neg (by omega)]
    · have : dropCell n ((j, b) :: cs) = (j, b) :: dropCell n cs := by simp [dropCell, hj]
      rw [this, lookupByte, lookupByte, ih]

theorem lookupByte_insertCell_ne {n k : Nat} (h : k ≠ n) (b : Byte) (cs : List Host.Cell) :
    lookupByte k (insertCell n b cs) = lookupByte k cs := by
  induction cs with
  | nil => simp [insertCell, lookupByte, h.symm]
  | cons c cs ih =>
    obtain ⟨j, c⟩ := c
    by_cases hj : n < j
    · simp [insertCell, hj, lookupByte, h.symm]
    · simp [insertCell, hj, lookupByte, ih]

theorem lookupByte_insertCell_same (n : Nat) (b : Byte) (cs : List Host.Cell)
    (h : ∀ c ∈ cs, c.1 ≠ n) : lookupByte n (insertCell n b cs) = b := by
  induction cs with
  | nil => simp [insertCell, lookupByte]
  | cons c cs ih =>
    obtain ⟨j, c⟩ := c
    by_cases hj : n < j
    · simp [insertCell, hj, lookupByte]
    · have hne : j ≠ n := h (j, c) (by simp)
      simp only [insertCell, if_neg hj, lookupByte, if_neg hne]
      exact ih fun d hd => h d (by simp [hd])

theorem mem_dropCell {n : Nat} {cs : List Host.Cell} {c : Host.Cell} :
    c ∈ dropCell n cs ↔ c ∈ cs ∧ c.1 ≠ n := by
  simp [dropCell]

theorem mem_insertCell {n : Nat} {b : Byte} {cs : List Host.Cell} {c : Host.Cell} :
    c ∈ insertCell n b cs ↔ c = (n, b) ∨ c ∈ cs := by
  induction cs with
  | nil => simp [insertCell]
  | cons d cs ih =>
    obtain ⟨j, e⟩ := d
    by_cases hj : n < j
    · simp [insertCell, hj]
    · simp only [insertCell, if_neg hj, List.mem_cons, ih]
      tauto

/-! ## One octet -/

@[simp] theorem Memory.byteAt_setByte_same (m : Memory) (n : Nat) (b : Byte) :
    (m.setByte n b).byteAt n = b := by
  by_cases h : b = unlistedByte
  · simp [Memory.byteAt, Memory.setByte, h, lookupByte_dropCell_same]
  · simp only [Memory.byteAt, Memory.setByte, if_neg h]
    exact lookupByte_insertCell_same n b _ fun c hc => (mem_dropCell.mp hc).2

@[simp] theorem Memory.byteAt_setByte_ne {n k : Nat} (h : k ≠ n) (m : Memory) (b : Byte) :
    (m.setByte n b).byteAt k = m.byteAt k := by
  by_cases hb : b = unlistedByte
  · simp [Memory.byteAt, Memory.setByte, hb, lookupByte_dropCell_ne h]
  · simp [Memory.byteAt, Memory.setByte, hb, lookupByte_insertCell_ne h, lookupByte_dropCell_ne h]

/-! ## One word -/

/-- Every octet outside the word written reads as before. -/
theorem Memory.byteAt_writeWord_ne {a : Word} {n : Nat} (h0 : n ≠ 2 * a.toNat) (h1 : n ≠ 2 * a.toNat + 1)
    (m : Memory) (v : Word) : (m.writeWord a v).byteAt n = m.byteAt n := by
  rw [Memory.writeWord, Memory.byteAt_setByte_ne h1, Memory.byteAt_setByte_ne h0]

/-- A read after a write to the same address gives the value written. -/
@[simp] theorem Memory.readWord_writeWord_same (m : Memory) (a v : Word) :
    (m.writeWord a v).readWord a = v := by
  have h : 2 * a.toNat ≠ 2 * a.toNat + 1 := by omega
  rw [Memory.readWord, Memory.writeWord, Memory.byteAt_setByte_same, Memory.byteAt_setByte_ne h,
    Memory.byteAt_setByte_same, wordOfBytes_high_low]

/-- A write leaves every other word alone. -/
@[simp] theorem Memory.readWord_writeWord_ne {a b : Word} (h : b ≠ a) (m : Memory) (v : Word) :
    (m.writeWord a v).readWord b = m.readWord b := by
  have hn : b.toNat ≠ a.toNat := fun e => h (BitVec.eq_of_toNat_eq e)
  simp only [Memory.readWord]
  rw [Memory.byteAt_writeWord_ne (by omega) (by omega), Memory.byteAt_writeWord_ne (by omega) (by omega)]

/-! ## The canonical form -/

theorem Memory.wf_iff (m : Memory) : m.wf = true ↔
    m.cells.Pairwise (fun c d => c.1 < d.1) ∧ ∀ c ∈ m.cells, c.2 ≠ unlistedByte ∧ c.1 < 131072 := by
  simp [Memory.wf]

theorem insertCell_pairwise (n : Nat) (b : Byte) (cs : List Host.Cell)
    (hp : cs.Pairwise fun c d => c.1 < d.1) (hn : ∀ c ∈ cs, c.1 ≠ n) :
    (insertCell n b cs).Pairwise fun c d => c.1 < d.1 := by
  induction cs with
  | nil => simp [insertCell]
  | cons d cs ih =>
    obtain ⟨j, e⟩ := d
    have ⟨hd, hp'⟩ := List.pairwise_cons.mp hp
    by_cases hj : n < j
    · simp only [insertCell, if_pos hj, List.pairwise_cons]
      refine ⟨fun c hc => ?_, hd, hp'⟩
      rcases List.mem_cons.mp hc with rfl | hc
      · exact hj
      · exact Nat.lt_trans hj (hd c hc)
    · simp only [insertCell, if_neg hj, List.pairwise_cons]
      refine ⟨fun c hc => ?_, ih hp' fun c hc => hn c (by simp [hc])⟩
      have hne : j ≠ n := hn (j, e) (by simp)
      rcases mem_insertCell.mp hc with rfl | hc
      · simp only; omega
      · exact hd c hc

/-- Writing an octet of the address space keeps the canonical form. -/
theorem Memory.setByte_wf {m : Memory} {n : Nat} (h : m.wf = true) (hn : n < 131072) (b : Byte) :
    (m.setByte n b).wf = true := by
  rw [Memory.wf_iff] at h ⊢
  have hp : (dropCell n m.cells).Pairwise fun c d => c.1 < d.1 := h.1.filter _
  by_cases hb : b = unlistedByte
  · simp only [Memory.setByte, if_pos hb]
    exact ⟨hp, fun c hc => h.2 c (mem_dropCell.mp hc).1⟩
  · simp only [Memory.setByte, if_neg hb]
    refine ⟨insertCell_pairwise n b _ hp fun c hc => (mem_dropCell.mp hc).2, fun c hc => ?_⟩
    rcases mem_insertCell.mp hc with rfl | hc
    · exact ⟨hb, hn⟩
    · exact h.2 c (mem_dropCell.mp hc).1

/-- Writing a word keeps the canonical form. -/
theorem Memory.writeWord_wf {m : Memory} (h : m.wf = true) (a v : Word) : (m.writeWord a v).wf = true := by
  have ha : a.toNat < 65536 := a.isLt
  exact Memory.setByte_wf (Memory.setByte_wf h (by omega) _) (by omega) _

/-- The memory after reset is in canonical form. -/
theorem reset_mem_wf : State.reset.mem.wf = true := by decide

/-- In a list with rising addresses, a cell's address reads as its octet. -/
theorem lookupByte_of_mem {n : Nat} {b : Byte} {cs : List Host.Cell}
    (hp : cs.Pairwise fun c d => c.1 < d.1) (hm : (n, b) ∈ cs) : lookupByte n cs = b := by
  induction cs with
  | nil => simp at hm
  | cons d cs ih =>
    obtain ⟨j, e⟩ := d
    have ⟨hd, hp'⟩ := List.pairwise_cons.mp hp
    rcases List.mem_cons.mp hm with heq | hm
    · cases heq; simp [lookupByte]
    · have : j < n := hd _ hm
      rw [lookupByte, if_neg (by omega), ih hp' hm]

/-- An octet that reads as something else than an unlisted one is listed. -/
theorem mem_of_lookupByte {n : Nat} {cs : List Host.Cell} (h : lookupByte n cs ≠ unlistedByte) :
    (n, lookupByte n cs) ∈ cs := by
  induction cs with
  | nil => simp [lookupByte] at h
  | cons d cs ih =>
    obtain ⟨j, e⟩ := d
    by_cases hj : j = n
    · subst hj; simp [lookupByte]
    · simp only [lookupByte, if_neg hj] at h ⊢
      exact List.mem_cons_of_mem _ (ih h)

end Sys2Proof.Machine
end

