-- ==== Sys2Proof/Laws/Ops.lean ====
section
/-! SUPPORT. For each shared operation one lemma that says once what it can do. The provers cite these
instead of unfolding the operation. -/

namespace Sys2Proof.Machine

/-! ## Loads and stores -/

@[simp] theorem State.load_store_same (s : State) (a v : Word) : (s.store a v).load a = v :=
  Memory.readWord_writeWord_same _ _ _

@[simp] theorem State.load_store_ne (s : State) {a b : Word} (h : b ≠ a) (v : Word) :
    (s.store a v).load b = s.load b :=
  Memory.readWord_writeWord_ne h _ _

theorem State.load_store (s : State) (a b v : Word) :
    (s.store a v).load b = if b = a then v else s.load b := by
  by_cases h : b = a
  · subst h; simp
  · simp [h]

/-! ## The checks before execution -/

/-- Everything `guarded` can answer: the state unchanged, a trap, or the effect. -/
theorem guarded_cases (m : CondMode) (p : Bool) (s e : State) :
    (condPass m s.sw = false ∧ guarded m p s e = .next s)
      ∨ (condPass m s.sw = true ∧ s.user = true ∧ p = true ∧ guarded m p s e = .next (s.raiseTrap 1))
      ∨ (condPass m s.sw = true ∧ (s.user = true → p = false) ∧ guarded m p s e = .next e) := by
  unfold guarded
  cases condPass m s.sw <;> cases s.user <;> cases p <;> simp

theorem guarded_skipped {m : CondMode} {s : State} (h : condPass m s.sw = false) (p : Bool) (e : State) :
    guarded m p s e = .next s := by
  simp [guarded, h]

theorem guarded_trap {m : CondMode} {s : State} (h : condPass m s.sw = true) (hu : s.user = true) (e : State) :
    guarded m true s e = .next (s.raiseTrap 1) := by
  simp [guarded, h, hu]

theorem guarded_effect {m : CondMode} {p : Bool} {s : State} (h : condPass m s.sw = true)
    (hp : s.user = true → p = false) (e : State) : guarded m p s e = .next e := by
  unfold guarded
  cases hu : s.user
  · simp [h]
  · simp [h, hp hu]

/-- Everything `illegal` can answer. -/
theorem illegal_cases (m : CondMode) (s : State) :
    (condPass m s.sw = false ∧ illegal m s = .next s)
      ∨ (condPass m s.sw = true ∧ illegal m s = .next (s.raiseTrap 0)) := by
  unfold illegal
  cases condPass m s.sw <;> simp

theorem namesR6_iff (rs : List Reg) : namesR6 rs = true ↔ Reg.r6 ∈ rs := by
  simp [namesR6]

/-! ## Push and pop -/

theorem State.push_eq (s : State) (r : Reg) (v : Word) :
    s.push r v = (s.store (s.reg r) v).setReg r (s.reg r - 1) := rfl

@[simp] theorem State.push_sw (s : State) (r : Reg) (v : Word) : (s.push r v).sw = s.sw := rfl
@[simp] theorem State.push_mem (s : State) (r : Reg) (v : Word) :
    (s.push r v).mem = s.mem.writeWord (s.reg r) v := rfl
@[simp] theorem State.push_ioTrace (s : State) (r : Reg) (v : Word) : (s.push r v).ioTrace = s.ioTrace := rfl
@[simp] theorem State.push_irqScript (s : State) (r : Reg) (v : Word) :
    (s.push r v).irqScript = s.irqScript := rfl
@[simp] theorem State.push_ioScript (s : State) (r : Reg) (v : Word) : (s.push r v).ioScript = s.ioScript := rfl
@[simp] theorem State.push_draws (s : State) (r : Reg) (v : Word) : (s.push r v).draws = s.draws := rfl
@[simp] theorem State.push_user (s : State) (r : Reg) (v : Word) : (s.push r v).user = s.user := rfl
@[simp] theorem State.push_reg_same (s : State) (r : Reg) (v : Word) : (s.push r v).reg r = s.reg r - 1 := by
  simp [State.push_eq]
@[simp] theorem State.push_reg_ne (s : State) {r r' : Reg} (h : r' ≠ r) (v : Word) :
    (s.push r v).reg r' = s.reg r' := by
  simp [State.push_eq, h]
@[simp] theorem State.push_load (s : State) (r : Reg) (v a : Word) :
    (s.push r v).load a = if a = s.reg r then v else s.load a := by
  rw [State.push_eq, State.setReg_load, State.load_store]

@[simp] theorem State.pop_fst (s : State) (r : Reg) : (s.pop r).1 = s.load (s.reg r + 1) := rfl
@[simp] theorem State.pop_snd (s : State) (r : Reg) : (s.pop r).2 = s.setReg r (s.reg r + 1) := rfl

/-! ## Results with flags -/

@[simp] theorem State.setRegCZS_reg (s : State) (d r : Reg) (rc : Word × Bool) :
    (s.setRegCZS d rc).reg r = if r = d then rc.1 else s.reg r := State.reg_setReg _ _ _ _
@[simp] theorem State.setRegCZS_sw (s : State) (d : Reg) (rc : Word × Bool) :
    (s.setRegCZS d rc).sw = setCZS s.sw rc.1 rc.2 := rfl
@[simp] theorem State.setRegCZS_mem (s : State) (d : Reg) (rc : Word × Bool) :
    (s.setRegCZS d rc).mem = s.mem := rfl
@[simp] theorem State.setRegZS_reg (s : State) (d r : Reg) (v : Word) :
    (s.setRegZS d v).reg r = if r = d then v else s.reg r := State.reg_setReg _ _ _ _
@[simp] theorem State.setRegZS_sw (s : State) (d : Reg) (v : Word) :
    (s.setRegZS d v).sw = setZS s.sw v := rfl
@[simp] theorem State.setRegZS_mem (s : State) (d : Reg) (v : Word) : (s.setRegZS d v).mem = s.mem := rfl

/-! ## The I/O bus -/

/-- Everything `ioRead` can do: answer from the script, or draw a free value. -/
theorem State.ioRead_cases (s : State) (a : Word) :
    (∃ v rest, s.ioScript = v :: rest
        ∧ s.ioRead a = (v, { s with ioScript := rest, ioTrace := s.ioTrace ++ [.read a v] }))
      ∨ (s.ioScript = [] ∧ s.ioRead a = (Config.ioAnswer s.draws a,
          { s with draws := s.draws + 1, ioTrace := s.ioTrace ++ [.read a (Config.ioAnswer s.draws a)] })) := by
  unfold State.ioRead
  cases h : s.ioScript with
  | nil => exact .inr ⟨rfl, rfl⟩
  | cons v rest => exact .inl ⟨v, rest, rfl, rfl⟩

/-- An I/O read touches no register, no status bit and no memory, and makes exactly one bus access. -/
theorem State.ioRead_frame (s : State) (a : Word) :
    (s.ioRead a).2.regs = s.regs ∧ (s.ioRead a).2.sw = s.sw ∧ (s.ioRead a).2.mem = s.mem
      ∧ (s.ioRead a).2.irqScript = s.irqScript
      ∧ (s.ioRead a).2.ioTrace = s.ioTrace ++ [.read a (s.ioRead a).1] := by
  rcases s.ioRead_cases a with ⟨v, rest, _, h⟩ | ⟨_, h⟩ <;> simp [h]

/-! ## Entry and return -/

/-- The registers after entry: R6 three lower, R7 at the vector, the others as before. -/
theorem State.enter_reg (s : State) (vec n : Word) (c : Bool) (r : Reg) :
    (s.enter vec n c).reg r
      = if r = .r7 then vec else if r = .r6 then s.reg .r6 - 3 else s.reg r := by
  by_cases h7 : r = .r7
  · subst h7; simp [State.enter, State.setPc_eq]
  · by_cases h6 : r = .r6
    · subst h6
      simp only [State.enter, State.setPc_eq, State.setSw_reg, State.reg_setReg, State.push_reg_same, if_neg h7,
        if_true]
      bv_omega
    · simp [State.enter, State.setPc_eq, h7, h6]

/-- SW after entry: U clear, I clear if asked, the rest as before. -/
theorem State.enter_sw (s : State) (vec n : Word) (c : Bool) (j : Nat) :
    (s.enter vec n c).sw.getLsbD j
      = if j = 4 then false else if j = 3 then (s.sw.getLsbD 3 && !c) else s.sw.getLsbD j := by
  by_cases h4 : j = 4
  · subst h4
    cases c <;> simp only [State.enter, State.setSw_sw, if_true, Bool.false_eq_true, if_false,
      getLsbD_setBit _ (show 4 < 16 by omega), getLsbD_setBit _ (show 3 < 16 by omega)]; all_goals rfl
  · by_cases h3 : j = 3
    · subst h3
      cases c <;> simp only [State.enter, State.setSw_sw, if_true, Bool.false_eq_true, if_false,
        getLsbD_setBit _ (show 4 < 16 by omega), getLsbD_setBit _ (show 3 < 16 by omega), Bool.not_true,
        Bool.not_false, Bool.and_true, Bool.and_false]; all_goals rfl
    · cases c <;> simp [State.enter, getLsbD_setBit, h4, h3]

/-- Memory after entry: the three pushes, in order. -/
theorem State.enter_mem (s : State) (vec n : Word) (c : Bool) :
    (s.enter vec n c).mem
      = ((s.mem.writeWord (s.reg .r6) (s.reg .r7)).writeWord (s.reg .r6 - 1) s.sw).writeWord (s.reg .r6 - 2) n := by
  have h : s.reg .r6 - 1#16 - 1#16 = s.reg .r6 - 2#16 := by bv_omega
  simp [State.enter, State.pc_eq, h]

/-- Entry takes nothing from the environment. -/
theorem State.enter_env (s : State) (vec n : Word) (c : Bool) : sameEnv s (s.enter vec n c) :=
  ⟨rfl, rfl, rfl, rfl⟩

/-- The registers after the return: R6 two higher, R7 the second word popped, the others as before. -/
theorem State.returnFromTrap_reg (s : State) (r : Reg) :
    s.returnFromTrap.reg r
      = if r = .r7 then s.load (s.reg .r6 + 2) else if r = .r6 then s.reg .r6 + 2 else s.reg r := by
  have h : s.reg .r6 + 1#16 + 1#16 = s.reg .r6 + 2#16 := by bv_omega
  by_cases h7 : r = .r7
  · subst h7; simp [State.returnFromTrap, State.pop, State.setPc_eq, h]
  · by_cases h6 : r = .r6
    · subst h6; simp [State.returnFromTrap, State.pop, State.setPc_eq, h]
    · simp [State.returnFromTrap, State.pop, State.setPc_eq, h6, h7]

theorem State.returnFromTrap_sw (s : State) :
    s.returnFromTrap.sw = writeSw s.sw (s.load (s.reg .r6 + 1)) := rfl

@[simp] theorem State.returnFromTrap_mem (s : State) : s.returnFromTrap.mem = s.mem := rfl

theorem State.returnFromTrap_env (s : State) : sameEnv s s.returnFromTrap := ⟨rfl, rfl, rfl, rfl⟩

/-! ## Every effect with its frame, in the terms of Safety -/

/-- Entry leaves what `entered` says. -/
theorem State.enter_entered (s : State) (v n : Word) (c : Bool) : entered v n c s (s.enter v n c) := by
  have e1 : s.reg .r6 ≠ s.reg .r6 - 1 := by bv_omega
  have e2 : s.reg .r6 ≠ s.reg .r6 - 2 := by bv_omega
  have e3 : s.reg .r6 - 1 ≠ s.reg .r6 - 2 := by bv_omega
  refine ⟨?_, ?_, ?_, ?_, ?_, s.enter_sw v n c 4, ?_, ?_, ?_, ?_, rfl⟩
  · simp only [State.load, State.enter_mem, Memory.readWord_writeWord_ne e1, Memory.readWord_writeWord_ne e2,
      Memory.readWord_writeWord_same]
  · simp only [State.load, State.enter_mem, Memory.readWord_writeWord_ne e3, Memory.readWord_writeWord_same]
  · simp only [State.load, State.enter_mem, Memory.readWord_writeWord_same]
  · simp [State.enter_reg]
  · simp [State.enter_reg]
  · exact s.enter_sw v n c 3
  · intro r hr; simp at hr; simp [State.enter_reg, hr]
  · intro i hi; simp at hi; simp [State.enter_sw, hi]
  · intro k hk
    simp only [List.mem_cons, List.not_mem_nil, or_false, forall_eq_or_imp, forall_eq] at hk
    rw [State.enter_mem, Memory.byteAt_writeWord_ne hk.2.2.1 hk.2.2.2, Memory.byteAt_writeWord_ne hk.2.1.1 hk.2.1.2,
      Memory.byteAt_writeWord_ne hk.1.1 hk.1.2]

theorem State.setReg_valueOnly (s : State) (d : Reg) (v : Word) : valueOnly d v s (s.setReg d v) := by
  refine ⟨by simp, ?_, fun _ _ => rfl, fun _ _ => rfl, rfl, rfl, rfl, rfl⟩
  intro r hr; simp at hr; simp [hr]

theorem sameMemExcept_writeWord (s t : State) (a v : Word) (h : t.mem = s.mem.writeWord a v) :
    sameMemExcept [a] s t := by
  intro n hn
  simp only [List.mem_cons, List.not_mem_nil, or_false, forall_eq] at hn
  rw [h, Memory.byteAt_writeWord_ne hn.1 hn.2]

theorem State.store_storeOnly (s : State) (a v : Word) : storeOnly a v s (s.store a v) :=
  ⟨by simp, fun _ _ => rfl, fun _ _ => rfl, sameMemExcept_writeWord _ _ _ _ rfl, rfl, rfl, rfl, rfl⟩

theorem State.push_frame (s : State) (d : Reg) (v : Word) : changesOnly [d] [] [s.reg d] s (s.push d v) := by
  refine ⟨?_, fun _ _ => rfl, sameMemExcept_writeWord _ _ _ _ rfl, rfl, rfl, rfl, rfl⟩
  intro x hx; simp at hx; simp [hx]

theorem State.setRegCZS_resultCZS (s : State) (d : Reg) (rc : Word × Bool) :
    resultCZS d rc.1 rc.2 s (s.setRegCZS d rc) := by
  refine ⟨by simp, ⟨by simp, by rw [State.setRegCZS_sw, flagZ_setCZS]; rfl, by simp⟩, ?_, ?_, fun _ _ => rfl, rfl,
    rfl, rfl, rfl⟩
  · intro r hr; simp at hr; simp [hr]
  · intro i hi; simp at hi; simp [getLsbD_setCZS, hi]

theorem State.setRegZS_resultZS (s : State) (d : Reg) (v : Word) : resultZS d v s (s.setRegZS d v) := by
  refine ⟨by simp, ⟨by rw [State.setRegZS_sw, flagZ_setZS]; rfl, by simp⟩, ?_, ?_, fun _ _ => rfl, rfl, rfl, rfl, rfl⟩
  · intro r hr; simp at hr; simp [hr]
  · intro i hi; simp at hi; simp [getLsbD_setZS, hi]

end Sys2Proof.Machine
end

