-- ==== Sys2Proof/Laws/Step.lean ====
section
/-! SUPPORT. What fetching does, and the inversion of a step: an interrupt entry or one instruction. -/

namespace Sys2Proof.Machine

/-- How many words the instruction at R7 has (spec/30_encoding.md R82). -/
def fetchLength (s : State) : Word := if hasImmOf (s.load s.pc) then 2 else 1

/-- Fetching advances R7 by the length of the instruction and does nothing else. -/
theorem fetch_state (s : State) : (fetch s).2 = s.setPc (s.pc + fetchLength s) := by
  have two : s.pc + 1 + 1 = s.pc + 2 := by bv_omega
  by_cases h : hasImmOf (s.load s.pc) = true
  · simp only [fetch, fetchLength, h, if_true, ← two]
    exact State.setReg_setReg s .r7 _ _
  · simp only [fetch, fetchLength, h, if_false, Bool.false_eq_true]

/-- The instruction fetched is the one the words at R7 decode to. -/
theorem fetch_instr (s : State) :
    (fetch s).1 = decodeWords (s.load s.pc) (if hasImmOf (s.load s.pc) then s.load (s.pc + 1) else 0) := by
  by_cases h : hasImmOf (s.load s.pc) = true
  · simp only [fetch, h, if_true]
    rfl
  · simp only [fetch, h, if_false, Bool.false_eq_true]

/-- Everything a step can do: enter an interrupt, or run the instruction at R7. -/
theorem step_cases (s : State) :
    (∃ k s1, sampleInterrupt s = (some k, s1) ∧ step s = .next (s1.enterInterrupt k))
      ∨ (∃ s1, sampleInterrupt s = (none, s1) ∧ step s = exec (fetch s1).1 (fetch s1).2) := by
  unfold step
  rcases h : sampleInterrupt s with ⟨k, s1⟩
  cases k with
  | none => exact .inr ⟨s1, rfl, rfl⟩
  | some k => exact .inl ⟨k, s1, rfl, rfl⟩

/-- With interrupts disabled a step is the instruction at R7. -/
theorem step_of_disabled {s : State} (h : flagI s.sw = false) : step s = exec (fetch s).1 (fetch s).2 := by
  simp [step, sampleInterrupt_disabled h]

end Sys2Proof.Machine
end

