-- ==== Sys2Proof/Laws/Exec.lean ====
section
/-! SUPPORT. What `exec` can do, said once for all instructions: every defined form is one call of `guarded` with
the privilege check of the spec, every unused pair is `illegal`. -/

namespace Sys2Proof.Machine

/-- The check of spec/60_exceptions.md R302 over the facts about a form: I/O, and which fields it uses. -/
def privilegedBy (io dUsed : Bool) (d : Option Reg) (rUsed : Bool) (r : Reg) : Bool :=
  io || dUsed && d == some .r6 || rUsed && r == .r6

theorem privileged_eq (i : Instr) :
    privileged i = privilegedBy (isIo i) (dstUsed i) (dstField i) (srcUsed i) (srcField i) := rfl

theorem namesR6_both (d r : Reg) : namesR6 [d, r] = privilegedBy false true (some d) true r := by
  cases d <;> cases r <;> rfl
theorem namesR6_dst (d r : Reg) : namesR6 [d] = privilegedBy false true (some d) false r := by
  cases d <;> cases r <;> rfl
theorem namesR6_src (d r : Reg) : namesR6 [r] = privilegedBy false false (some d) true r := by
  cases d <;> cases r <;> rfl
theorem namesR6_none (d r : Reg) : namesR6 [] = privilegedBy false false (some d) false r := by
  cases d <;> cases r <;> rfl
theorem namesR6_sfl (r : Reg) : namesR6 [] = privilegedBy false false none false r := by
  cases r <;> rfl
theorem privilegedBy_io (dUsed : Bool) (d : Option Reg) (rUsed : Bool) (r : Reg) :
    true = privilegedBy true dUsed d rUsed r := rfl

/-- A defined form is its effect behind the checks of its mode and of R302. -/
theorem exec_guarded {i : Instr} (h : isUnused i = false) :
    ∃ effect : State → State, ∀ s, exec i s = guarded i.mode (privileged i) s (effect s) := by
  have key : ∃ (p : Bool) (e : State → State), p = privileged i ∧ ∀ s, exec i s = guarded i.mode p s (e s) := by
    cases i <;> first
      | exact Bool.noConfusion h
      | exact ⟨_, _, namesR6_both _ _, fun s => rfl⟩
      | exact ⟨_, _, namesR6_dst _ _, fun s => rfl⟩
      | exact ⟨_, _, namesR6_src _ _, fun s => rfl⟩
      | exact ⟨_, _, namesR6_none _ _, fun s => rfl⟩
      | exact ⟨_, _, namesR6_sfl _, fun s => rfl⟩
      | exact ⟨_, _, privilegedBy_io _ _ _ _, fun s => rfl⟩
  obtain ⟨p, e, rfl, he⟩ := key
  exact ⟨e, he⟩

/-- An unused pair is `illegal`. -/
theorem exec_unused {i : Instr} (h : isUnused i = true) (s : State) : exec i s = illegal i.mode s := by
  cases i <;> first
    | rfl
    | exact Bool.noConfusion h

end Sys2Proof.Machine
end

