-- ==== Sys2Proof/Laws/Operands.lean ====
section
/-! SUPPORT. What each operand form gives, in terms of registers, loads, stores, push and pop. -/

namespace Sys2Proof.Machine

variable (s : State) (r : Reg) (v imm : Word)

@[simp] theorem State.regAddr_eq : s.regAddr r = s.reg r := rfl
@[simp] theorem State.dispAddr_eq : s.dispAddr r imm = s.reg r + imm := rfl
@[simp] theorem State.loadInd_eq : s.loadInd r = s.load (s.reg r) := rfl
@[simp] theorem State.loadDisp_eq : s.loadDisp r imm = s.load (s.reg r + imm) := rfl
@[simp] theorem State.loadPostInc_fst : (s.loadPostInc r).1 = s.load (s.reg r) := rfl
@[simp] theorem State.loadPostInc_snd : (s.loadPostInc r).2 = s.setReg r (s.reg r + 1) := rfl
@[simp] theorem State.storePostInc_eq : s.storePostInc r v = (s.store (s.reg r) v).setReg r (s.reg r + 1) := rfl
@[simp] theorem State.storePostDec_eq : s.storePostDec r v = s.push r v := rfl
@[simp] theorem State.loadPreInc_eq : s.loadPreInc r = s.pop r := rfl

end Sys2Proof.Machine
end

