-- ==== Sys2Proof/Laws/PerInstr.lean ====
section
/-! SUPPORT. Statements about every instruction as syntax, one lemma per constructor of `Instr`. -/

namespace Sys2Proof.Laws

/-- Splitting the words of the instruction into fields and reading the opcode map gives it back. -/
def RoundTrip.Statement (i : Instr) : Prop := decodeWords (encodeWord i) (immOf i) = i

/-- The fields of a one-word or two-word instruction lead back to it when its registers do. -/
theorem roundTrip_of_fields {i : Instr} (hi : (fieldsOf i).hasImm = false → (fieldsOf i).imm = 0)
    (h : instrOf (fieldsOf i) = i) : RoundTrip.Statement i := by
  unfold RoundTrip.Statement decodeWords
  rw [splitFields_encodeWord]
  cases hb : (fieldsOf i).hasImm
  · simp only [Bool.false_eq_true, if_false, ← hi hb]
    exact h
  · simp only [if_true]
    exact h

/-- The two register fields of a one-word form. -/
theorem one_congr (f : Reg → Reg → Instr) (d r : Reg) : f (Reg.ofBits d.bits) (Reg.ofBits r.bits) = f d r := by
  rw [Reg.ofBits_bits, Reg.ofBits_bits]

/-- The flag index and the register field of SFL. -/
theorem flag_congr (f : FlagIndex → Reg → Instr) (x : FlagIndex) (r : Reg) :
    f (FlagIndex.ofBits x.bits) (Reg.ofBits r.bits) = f x r := by
  rw [FlagIndex.ofBits_bits, Reg.ofBits_bits]

theorem RoundTrip.movRegReg (m : CondMode) (d : Reg) (r : Reg) : RoundTrip.Statement (.movRegReg m d r) :=
  roundTrip_of_fields (fun _ => rfl) (one_congr (.movRegReg m) d r)

theorem RoundTrip.movRegImm (m : CondMode) (d r : Reg) (i : Word) : RoundTrip.Statement (.movRegImm m d r i) :=
  roundTrip_of_fields nofun (one_congr (fun a b => .movRegImm m a b i) d r)

theorem RoundTrip.movRegInd (m : CondMode) (d : Reg) (r : Reg) : RoundTrip.Statement (.movRegInd m d r) :=
  roundTrip_of_fields (fun _ => rfl) (one_congr (.movRegInd m) d r)

theorem RoundTrip.movRegAbs (m : CondMode) (d r : Reg) (i : Word) : RoundTrip.Statement (.movRegAbs m d r i) :=
  roundTrip_of_fields nofun (one_congr (fun a b => .movRegAbs m a b i) d r)

theorem RoundTrip.movIndReg (m : CondMode) (d : Reg) (r : Reg) : RoundTrip.Statement (.movIndReg m d r) :=
  roundTrip_of_fields (fun _ => rfl) (one_congr (.movIndReg m) d r)

theorem RoundTrip.movIndImm (m : CondMode) (d r : Reg) (i : Word) : RoundTrip.Statement (.movIndImm m d r i) :=
  roundTrip_of_fields nofun (one_congr (fun a b => .movIndImm m a b i) d r)

theorem RoundTrip.movIndInd (m : CondMode) (d : Reg) (r : Reg) : RoundTrip.Statement (.movIndInd m d r) :=
  roundTrip_of_fields (fun _ => rfl) (one_congr (.movIndInd m) d r)

theorem RoundTrip.movIndAbs (m : CondMode) (d r : Reg) (i : Word) : RoundTrip.Statement (.movIndAbs m d r i) :=
  roundTrip_of_fields nofun (one_congr (fun a b => .movIndAbs m a b i) d r)

theorem RoundTrip.movRegPostInc (m : CondMode) (d : Reg) (r : Reg) : RoundTrip.Statement (.movRegPostInc m d r) :=
  roundTrip_of_fields (fun _ => rfl) (one_congr (.movRegPostInc m) d r)

theorem RoundTrip.movAbsReg (m : CondMode) (d r : Reg) (i : Word) : RoundTrip.Statement (.movAbsReg m d r i) :=
  roundTrip_of_fields nofun (one_congr (fun a b => .movAbsReg m a b i) d r)

theorem RoundTrip.movPostIncReg (m : CondMode) (d : Reg) (r : Reg) : RoundTrip.Statement (.movPostIncReg m d r) :=
  roundTrip_of_fields (fun _ => rfl) (one_congr (.movPostIncReg m) d r)

theorem RoundTrip.movAbsInd (m : CondMode) (d r : Reg) (i : Word) : RoundTrip.Statement (.movAbsInd m d r i) :=
  roundTrip_of_fields nofun (one_congr (fun a b => .movAbsInd m a b i) d r)

theorem RoundTrip.mvl (m : CondMode) (d : Reg) (r : Reg) : RoundTrip.Statement (.mvl m d r) :=
  roundTrip_of_fields (fun _ => rfl) (one_congr (.mvl m) d r)

theorem RoundTrip.movRegDisp (m : CondMode) (d r : Reg) (i : Word) : RoundTrip.Statement (.movRegDisp m d r i) :=
  roundTrip_of_fields nofun (one_congr (fun a b => .movRegDisp m a b i) d r)

theorem RoundTrip.mvh (m : CondMode) (d : Reg) (r : Reg) : RoundTrip.Statement (.mvh m d r) :=
  roundTrip_of_fields (fun _ => rfl) (one_congr (.mvh m) d r)

theorem RoundTrip.movIndDisp (m : CondMode) (d r : Reg) (i : Word) : RoundTrip.Statement (.movIndDisp m d r i) :=
  roundTrip_of_fields nofun (one_congr (fun a b => .movIndDisp m a b i) d r)

theorem RoundTrip.nul (m : CondMode) (d : Reg) (r : Reg) : RoundTrip.Statement (.nul m d r) :=
  roundTrip_of_fields (fun _ => rfl) (one_congr (.nul m) d r)

theorem RoundTrip.movDispReg (m : CondMode) (d r : Reg) (i : Word) : RoundTrip.Statement (.movDispReg m d r i) :=
  roundTrip_of_fields nofun (one_congr (fun a b => .movDispReg m a b i) d r)

theorem RoundTrip.mkw (m : CondMode) (d : Reg) (r : Reg) : RoundTrip.Statement (.mkw m d r) :=
  roundTrip_of_fields (fun _ => rfl) (one_congr (.mkw m) d r)

theorem RoundTrip.movDispInd (m : CondMode) (d r : Reg) (i : Word) : RoundTrip.Statement (.movDispInd m d r i) :=
  roundTrip_of_fields nofun (one_congr (fun a b => .movDispInd m a b i) d r)

theorem RoundTrip.movRegSw (m : CondMode) (d : Reg) (r : Reg) : RoundTrip.Statement (.movRegSw m d r) :=
  roundTrip_of_fields (fun _ => rfl) (one_congr (.movRegSw m) d r)

theorem RoundTrip.movAbsSw (m : CondMode) (d r : Reg) (i : Word) : RoundTrip.Statement (.movAbsSw m d r i) :=
  roundTrip_of_fields nofun (one_congr (fun a b => .movAbsSw m a b i) d r)

theorem RoundTrip.movSwReg (m : CondMode) (d : Reg) (r : Reg) : RoundTrip.Statement (.movSwReg m d r) :=
  roundTrip_of_fields (fun _ => rfl) (one_congr (.movSwReg m) d r)

theorem RoundTrip.movSwImm (m : CondMode) (d r : Reg) (i : Word) : RoundTrip.Statement (.movSwImm m d r i) :=
  roundTrip_of_fields nofun (one_congr (fun a b => .movSwImm m a b i) d r)

theorem RoundTrip.movPostDecReg (m : CondMode) (d : Reg) (r : Reg) : RoundTrip.Statement (.movPostDecReg m d r) :=
  roundTrip_of_fields (fun _ => rfl) (one_congr (.movPostDecReg m) d r)

theorem RoundTrip.movPostDecImm (m : CondMode) (d r : Reg) (i : Word) : RoundTrip.Statement (.movPostDecImm m d r i) :=
  roundTrip_of_fields nofun (one_congr (fun a b => .movPostDecImm m a b i) d r)

theorem RoundTrip.movPostDecSw (m : CondMode) (d : Reg) (r : Reg) : RoundTrip.Statement (.movPostDecSw m d r) :=
  roundTrip_of_fields (fun _ => rfl) (one_congr (.movPostDecSw m) d r)

theorem RoundTrip.outAbsReg (m : CondMode) (d r : Reg) (i : Word) : RoundTrip.Statement (.outAbsReg m d r i) :=
  roundTrip_of_fields nofun (one_congr (fun a b => .outAbsReg m a b i) d r)

theorem RoundTrip.movRegPreInc (m : CondMode) (d : Reg) (r : Reg) : RoundTrip.Statement (.movRegPreInc m d r) :=
  roundTrip_of_fields (fun _ => rfl) (one_congr (.movRegPreInc m) d r)

theorem RoundTrip.illegal0EImm (m : CondMode) (d r : Reg) (i : Word) : RoundTrip.Statement (.illegal0EImm m d r i) :=
  roundTrip_of_fields nofun (one_congr (fun a b => .illegal0EImm m a b i) d r)

theorem RoundTrip.movSwPreInc (m : CondMode) (d : Reg) (r : Reg) : RoundTrip.Statement (.movSwPreInc m d r) :=
  roundTrip_of_fields (fun _ => rfl) (one_congr (.movSwPreInc m) d r)

theorem RoundTrip.illegal0FImm (m : CondMode) (d r : Reg) (i : Word) : RoundTrip.Statement (.illegal0FImm m d r i) :=
  roundTrip_of_fields nofun (one_congr (fun a b => .illegal0FImm m a b i) d r)

theorem RoundTrip.addReg (m : CondMode) (d : Reg) (r : Reg) : RoundTrip.Statement (.addReg m d r) :=
  roundTrip_of_fields (fun _ => rfl) (one_congr (.addReg m) d r)

theorem RoundTrip.addImm (m : CondMode) (d r : Reg) (i : Word) : RoundTrip.Statement (.addImm m d r i) :=
  roundTrip_of_fields nofun (one_congr (fun a b => .addImm m a b i) d r)

theorem RoundTrip.adcReg (m : CondMode) (d : Reg) (r : Reg) : RoundTrip.Statement (.adcReg m d r) :=
  roundTrip_of_fields (fun _ => rfl) (one_congr (.adcReg m) d r)

theorem RoundTrip.adcImm (m : CondMode) (d r : Reg) (i : Word) : RoundTrip.Statement (.adcImm m d r i) :=
  roundTrip_of_fields nofun (one_congr (fun a b => .adcImm m a b i) d r)

theorem RoundTrip.assReg (m : CondMode) (d : Reg) (r : Reg) : RoundTrip.Statement (.assReg m d r) :=
  roundTrip_of_fields (fun _ => rfl) (one_congr (.assReg m) d r)

theorem RoundTrip.assImm (m : CondMode) (d r : Reg) (i : Word) : RoundTrip.Statement (.assImm m d r i) :=
  roundTrip_of_fields nofun (one_congr (fun a b => .assImm m a b i) d r)

theorem RoundTrip.subReg (m : CondMode) (d : Reg) (r : Reg) : RoundTrip.Statement (.subReg m d r) :=
  roundTrip_of_fields (fun _ => rfl) (one_congr (.subReg m) d r)

theorem RoundTrip.illegal13Imm (m : CondMode) (d r : Reg) (i : Word) : RoundTrip.Statement (.illegal13Imm m d r i) :=
  roundTrip_of_fields nofun (one_congr (fun a b => .illegal13Imm m a b i) d r)

theorem RoundTrip.sbcReg (m : CondMode) (d : Reg) (r : Reg) : RoundTrip.Statement (.sbcReg m d r) :=
  roundTrip_of_fields (fun _ => rfl) (one_congr (.sbcReg m) d r)

theorem RoundTrip.illegal14Imm (m : CondMode) (d r : Reg) (i : Word) : RoundTrip.Statement (.illegal14Imm m d r i) :=
  roundTrip_of_fields nofun (one_congr (fun a b => .illegal14Imm m a b i) d r)

theorem RoundTrip.incReg (m : CondMode) (d : Reg) (r : Reg) : RoundTrip.Statement (.incReg m d r) :=
  roundTrip_of_fields (fun _ => rfl) (one_congr (.incReg m) d r)

theorem RoundTrip.illegal15Imm (m : CondMode) (d r : Reg) (i : Word) : RoundTrip.Statement (.illegal15Imm m d r i) :=
  roundTrip_of_fields nofun (one_congr (fun a b => .illegal15Imm m a b i) d r)

theorem RoundTrip.decReg (m : CondMode) (d : Reg) (r : Reg) : RoundTrip.Statement (.decReg m d r) :=
  roundTrip_of_fields (fun _ => rfl) (one_congr (.decReg m) d r)

theorem RoundTrip.illegal16Imm (m : CondMode) (d r : Reg) (i : Word) : RoundTrip.Statement (.illegal16Imm m d r i) :=
  roundTrip_of_fields nofun (one_congr (fun a b => .illegal16Imm m a b i) d r)

theorem RoundTrip.shlReg (m : CondMode) (d : Reg) (r : Reg) : RoundTrip.Statement (.shlReg m d r) :=
  roundTrip_of_fields (fun _ => rfl) (one_congr (.shlReg m) d r)

theorem RoundTrip.illegal17Imm (m : CondMode) (d r : Reg) (i : Word) : RoundTrip.Statement (.illegal17Imm m d r i) :=
  roundTrip_of_fields nofun (one_congr (fun a b => .illegal17Imm m a b i) d r)

theorem RoundTrip.rolReg (m : CondMode) (d : Reg) (r : Reg) : RoundTrip.Statement (.rolReg m d r) :=
  roundTrip_of_fields (fun _ => rfl) (one_congr (.rolReg m) d r)

theorem RoundTrip.illegal18Imm (m : CondMode) (d r : Reg) (i : Word) : RoundTrip.Statement (.illegal18Imm m d r i) :=
  roundTrip_of_fields nofun (one_congr (fun a b => .illegal18Imm m a b i) d r)

theorem RoundTrip.shrReg (m : CondMode) (d : Reg) (r : Reg) : RoundTrip.Statement (.shrReg m d r) :=
  roundTrip_of_fields (fun _ => rfl) (one_congr (.shrReg m) d r)

theorem RoundTrip.illegal19Imm (m : CondMode) (d r : Reg) (i : Word) : RoundTrip.Statement (.illegal19Imm m d r i) :=
  roundTrip_of_fields nofun (one_congr (fun a b => .illegal19Imm m a b i) d r)

theorem RoundTrip.rorReg (m : CondMode) (d : Reg) (r : Reg) : RoundTrip.Statement (.rorReg m d r) :=
  roundTrip_of_fields (fun _ => rfl) (one_congr (.rorReg m) d r)

theorem RoundTrip.illegal1AImm (m : CondMode) (d r : Reg) (i : Word) : RoundTrip.Statement (.illegal1AImm m d r i) :=
  roundTrip_of_fields nofun (one_congr (fun a b => .illegal1AImm m a b i) d r)

theorem RoundTrip.notReg (m : CondMode) (d : Reg) (r : Reg) : RoundTrip.Statement (.notReg m d r) :=
  roundTrip_of_fields (fun _ => rfl) (one_congr (.notReg m) d r)

theorem RoundTrip.illegal1BImm (m : CondMode) (d r : Reg) (i : Word) : RoundTrip.Statement (.illegal1BImm m d r i) :=
  roundTrip_of_fields nofun (one_congr (fun a b => .illegal1BImm m a b i) d r)

theorem RoundTrip.negReg (m : CondMode) (d : Reg) (r : Reg) : RoundTrip.Statement (.negReg m d r) :=
  roundTrip_of_fields (fun _ => rfl) (one_congr (.negReg m) d r)

theorem RoundTrip.illegal1CImm (m : CondMode) (d r : Reg) (i : Word) : RoundTrip.Statement (.illegal1CImm m d r i) :=
  roundTrip_of_fields nofun (one_congr (fun a b => .illegal1CImm m a b i) d r)

theorem RoundTrip.anlReg (m : CondMode) (d : Reg) (r : Reg) : RoundTrip.Statement (.anlReg m d r) :=
  roundTrip_of_fields (fun _ => rfl) (one_congr (.anlReg m) d r)

theorem RoundTrip.anlImm (m : CondMode) (d r : Reg) (i : Word) : RoundTrip.Statement (.anlImm m d r i) :=
  roundTrip_of_fields nofun (one_congr (fun a b => .anlImm m a b i) d r)

theorem RoundTrip.orlReg (m : CondMode) (d : Reg) (r : Reg) : RoundTrip.Statement (.orlReg m d r) :=
  roundTrip_of_fields (fun _ => rfl) (one_congr (.orlReg m) d r)

theorem RoundTrip.orlImm (m : CondMode) (d r : Reg) (i : Word) : RoundTrip.Statement (.orlImm m d r i) :=
  roundTrip_of_fields nofun (one_congr (fun a b => .orlImm m a b i) d r)

theorem RoundTrip.xorReg (m : CondMode) (d : Reg) (r : Reg) : RoundTrip.Statement (.xorReg m d r) :=
  roundTrip_of_fields (fun _ => rfl) (one_congr (.xorReg m) d r)

theorem RoundTrip.xorImm (m : CondMode) (d r : Reg) (i : Word) : RoundTrip.Statement (.xorImm m d r i) :=
  roundTrip_of_fields nofun (one_congr (fun a b => .xorImm m a b i) d r)

theorem RoundTrip.sfl (m : CondMode) (x : FlagIndex) (r : Reg) : RoundTrip.Statement (.sfl m x r) :=
  roundTrip_of_fields (fun _ => rfl) (flag_congr (.sfl m) x r)

theorem RoundTrip.illegal20Imm (m : CondMode) (d r : Reg) (i : Word) : RoundTrip.Statement (.illegal20Imm m d r i) :=
  roundTrip_of_fields nofun (one_congr (fun a b => .illegal20Imm m a b i) d r)

theorem RoundTrip.sexReg (m : CondMode) (d : Reg) (r : Reg) : RoundTrip.Statement (.sexReg m d r) :=
  roundTrip_of_fields (fun _ => rfl) (one_congr (.sexReg m) d r)

theorem RoundTrip.sexImm (m : CondMode) (d r : Reg) (i : Word) : RoundTrip.Statement (.sexImm m d r i) :=
  roundTrip_of_fields nofun (one_congr (fun a b => .sexImm m a b i) d r)

theorem RoundTrip.tmcReg (m : CondMode) (d : Reg) (r : Reg) : RoundTrip.Statement (.tmcReg m d r) :=
  roundTrip_of_fields (fun _ => rfl) (one_congr (.tmcReg m) d r)

theorem RoundTrip.tmcImm (m : CondMode) (d r : Reg) (i : Word) : RoundTrip.Statement (.tmcImm m d r i) :=
  roundTrip_of_fields nofun (one_congr (fun a b => .tmcImm m a b i) d r)

theorem RoundTrip.cmpReg (m : CondMode) (d : Reg) (r : Reg) : RoundTrip.Statement (.cmpReg m d r) :=
  roundTrip_of_fields (fun _ => rfl) (one_congr (.cmpReg m) d r)

theorem RoundTrip.cmpImm (m : CondMode) (d r : Reg) (i : Word) : RoundTrip.Statement (.cmpImm m d r i) :=
  roundTrip_of_fields nofun (one_congr (fun a b => .cmpImm m a b i) d r)

theorem RoundTrip.tstReg (m : CondMode) (d : Reg) (r : Reg) : RoundTrip.Statement (.tstReg m d r) :=
  roundTrip_of_fields (fun _ => rfl) (one_congr (.tstReg m) d r)

theorem RoundTrip.tstImm (m : CondMode) (d r : Reg) (i : Word) : RoundTrip.Statement (.tstImm m d r i) :=
  roundTrip_of_fields nofun (one_congr (fun a b => .tstImm m a b i) d r)

theorem RoundTrip.outIndReg (m : CondMode) (d : Reg) (r : Reg) : RoundTrip.Statement (.outIndReg m d r) :=
  roundTrip_of_fields (fun _ => rfl) (one_congr (.outIndReg m) d r)

theorem RoundTrip.outIndImm (m : CondMode) (d r : Reg) (i : Word) : RoundTrip.Statement (.outIndImm m d r i) :=
  roundTrip_of_fields nofun (one_congr (fun a b => .outIndImm m a b i) d r)

theorem RoundTrip.inRegInd (m : CondMode) (d : Reg) (r : Reg) : RoundTrip.Statement (.inRegInd m d r) :=
  roundTrip_of_fields (fun _ => rfl) (one_congr (.inRegInd m) d r)

theorem RoundTrip.inRegAbs (m : CondMode) (d r : Reg) (i : Word) : RoundTrip.Statement (.inRegAbs m d r i) :=
  roundTrip_of_fields nofun (one_congr (fun a b => .inRegAbs m a b i) d r)

theorem RoundTrip.illegal27Word (m : CondMode) (d : Reg) (r : Reg) : RoundTrip.Statement (.illegal27Word m d r) :=
  roundTrip_of_fields (fun _ => rfl) (one_congr (.illegal27Word m) d r)

theorem RoundTrip.illegal27Imm (m : CondMode) (d r : Reg) (i : Word) : RoundTrip.Statement (.illegal27Imm m d r i) :=
  roundTrip_of_fields nofun (one_congr (fun a b => .illegal27Imm m a b i) d r)

theorem RoundTrip.illegal28Word (m : CondMode) (d : Reg) (r : Reg) : RoundTrip.Statement (.illegal28Word m d r) :=
  roundTrip_of_fields (fun _ => rfl) (one_congr (.illegal28Word m) d r)

theorem RoundTrip.illegal28Imm (m : CondMode) (d r : Reg) (i : Word) : RoundTrip.Statement (.illegal28Imm m d r i) :=
  roundTrip_of_fields nofun (one_congr (fun a b => .illegal28Imm m a b i) d r)

theorem RoundTrip.illegal29Word (m : CondMode) (d : Reg) (r : Reg) : RoundTrip.Statement (.illegal29Word m d r) :=
  roundTrip_of_fields (fun _ => rfl) (one_congr (.illegal29Word m) d r)

theorem RoundTrip.illegal29Imm (m : CondMode) (d r : Reg) (i : Word) : RoundTrip.Statement (.illegal29Imm m d r i) :=
  roundTrip_of_fields nofun (one_congr (fun a b => .illegal29Imm m a b i) d r)

theorem RoundTrip.illegal2AWord (m : CondMode) (d : Reg) (r : Reg) : RoundTrip.Statement (.illegal2AWord m d r) :=
  roundTrip_of_fields (fun _ => rfl) (one_congr (.illegal2AWord m) d r)

theorem RoundTrip.illegal2AImm (m : CondMode) (d r : Reg) (i : Word) : RoundTrip.Statement (.illegal2AImm m d r i) :=
  roundTrip_of_fields nofun (one_congr (fun a b => .illegal2AImm m a b i) d r)

theorem RoundTrip.illegal2BWord (m : CondMode) (d : Reg) (r : Reg) : RoundTrip.Statement (.illegal2BWord m d r) :=
  roundTrip_of_fields (fun _ => rfl) (one_congr (.illegal2BWord m) d r)

theorem RoundTrip.illegal2BImm (m : CondMode) (d r : Reg) (i : Word) : RoundTrip.Statement (.illegal2BImm m d r i) :=
  roundTrip_of_fields nofun (one_congr (fun a b => .illegal2BImm m a b i) d r)

theorem RoundTrip.illegal2CWord (m : CondMode) (d : Reg) (r : Reg) : RoundTrip.Statement (.illegal2CWord m d r) :=
  roundTrip_of_fields (fun _ => rfl) (one_congr (.illegal2CWord m) d r)

theorem RoundTrip.illegal2CImm (m : CondMode) (d r : Reg) (i : Word) : RoundTrip.Statement (.illegal2CImm m d r i) :=
  roundTrip_of_fields nofun (one_congr (fun a b => .illegal2CImm m a b i) d r)

theorem RoundTrip.illegal2DWord (m : CondMode) (d : Reg) (r : Reg) : RoundTrip.Statement (.illegal2DWord m d r) :=
  roundTrip_of_fields (fun _ => rfl) (one_congr (.illegal2DWord m) d r)

theorem RoundTrip.illegal2DImm (m : CondMode) (d r : Reg) (i : Word) : RoundTrip.Statement (.illegal2DImm m d r i) :=
  roundTrip_of_fields nofun (one_congr (fun a b => .illegal2DImm m a b i) d r)

theorem RoundTrip.illegal2EWord (m : CondMode) (d : Reg) (r : Reg) : RoundTrip.Statement (.illegal2EWord m d r) :=
  roundTrip_of_fields (fun _ => rfl) (one_congr (.illegal2EWord m) d r)

theorem RoundTrip.illegal2EImm (m : CondMode) (d r : Reg) (i : Word) : RoundTrip.Statement (.illegal2EImm m d r i) :=
  roundTrip_of_fields nofun (one_congr (fun a b => .illegal2EImm m a b i) d r)

theorem RoundTrip.illegal2FWord (m : CondMode) (d : Reg) (r : Reg) : RoundTrip.Statement (.illegal2FWord m d r) :=
  roundTrip_of_fields (fun _ => rfl) (one_congr (.illegal2FWord m) d r)

theorem RoundTrip.illegal2FImm (m : CondMode) (d r : Reg) (i : Word) : RoundTrip.Statement (.illegal2FImm m d r i) :=
  roundTrip_of_fields nofun (one_congr (fun a b => .illegal2FImm m a b i) d r)

theorem RoundTrip.illegal30Word (m : CondMode) (d : Reg) (r : Reg) : RoundTrip.Statement (.illegal30Word m d r) :=
  roundTrip_of_fields (fun _ => rfl) (one_congr (.illegal30Word m) d r)

theorem RoundTrip.illegal30Imm (m : CondMode) (d r : Reg) (i : Word) : RoundTrip.Statement (.illegal30Imm m d r i) :=
  roundTrip_of_fields nofun (one_congr (fun a b => .illegal30Imm m a b i) d r)

theorem RoundTrip.illegal31Word (m : CondMode) (d : Reg) (r : Reg) : RoundTrip.Statement (.illegal31Word m d r) :=
  roundTrip_of_fields (fun _ => rfl) (one_congr (.illegal31Word m) d r)

theorem RoundTrip.illegal31Imm (m : CondMode) (d r : Reg) (i : Word) : RoundTrip.Statement (.illegal31Imm m d r i) :=
  roundTrip_of_fields nofun (one_congr (fun a b => .illegal31Imm m a b i) d r)

theorem RoundTrip.illegal32Word (m : CondMode) (d : Reg) (r : Reg) : RoundTrip.Statement (.illegal32Word m d r) :=
  roundTrip_of_fields (fun _ => rfl) (one_congr (.illegal32Word m) d r)

theorem RoundTrip.illegal32Imm (m : CondMode) (d r : Reg) (i : Word) : RoundTrip.Statement (.illegal32Imm m d r i) :=
  roundTrip_of_fields nofun (one_congr (fun a b => .illegal32Imm m a b i) d r)

theorem RoundTrip.illegal33Word (m : CondMode) (d : Reg) (r : Reg) : RoundTrip.Statement (.illegal33Word m d r) :=
  roundTrip_of_fields (fun _ => rfl) (one_congr (.illegal33Word m) d r)

theorem RoundTrip.illegal33Imm (m : CondMode) (d r : Reg) (i : Word) : RoundTrip.Statement (.illegal33Imm m d r i) :=
  roundTrip_of_fields nofun (one_congr (fun a b => .illegal33Imm m a b i) d r)

theorem RoundTrip.illegal34Word (m : CondMode) (d : Reg) (r : Reg) : RoundTrip.Statement (.illegal34Word m d r) :=
  roundTrip_of_fields (fun _ => rfl) (one_congr (.illegal34Word m) d r)

theorem RoundTrip.illegal34Imm (m : CondMode) (d r : Reg) (i : Word) : RoundTrip.Statement (.illegal34Imm m d r i) :=
  roundTrip_of_fields nofun (one_congr (fun a b => .illegal34Imm m a b i) d r)

theorem RoundTrip.illegal35Word (m : CondMode) (d : Reg) (r : Reg) : RoundTrip.Statement (.illegal35Word m d r) :=
  roundTrip_of_fields (fun _ => rfl) (one_congr (.illegal35Word m) d r)

theorem RoundTrip.illegal35Imm (m : CondMode) (d r : Reg) (i : Word) : RoundTrip.Statement (.illegal35Imm m d r i) :=
  roundTrip_of_fields nofun (one_congr (fun a b => .illegal35Imm m a b i) d r)

theorem RoundTrip.illegal36Word (m : CondMode) (d : Reg) (r : Reg) : RoundTrip.Statement (.illegal36Word m d r) :=
  roundTrip_of_fields (fun _ => rfl) (one_congr (.illegal36Word m) d r)

theorem RoundTrip.illegal36Imm (m : CondMode) (d r : Reg) (i : Word) : RoundTrip.Statement (.illegal36Imm m d r i) :=
  roundTrip_of_fields nofun (one_congr (fun a b => .illegal36Imm m a b i) d r)

theorem RoundTrip.illegal37Word (m : CondMode) (d : Reg) (r : Reg) : RoundTrip.Statement (.illegal37Word m d r) :=
  roundTrip_of_fields (fun _ => rfl) (one_congr (.illegal37Word m) d r)

theorem RoundTrip.illegal37Imm (m : CondMode) (d r : Reg) (i : Word) : RoundTrip.Statement (.illegal37Imm m d r i) :=
  roundTrip_of_fields nofun (one_congr (fun a b => .illegal37Imm m a b i) d r)

theorem RoundTrip.illegal38Word (m : CondMode) (d : Reg) (r : Reg) : RoundTrip.Statement (.illegal38Word m d r) :=
  roundTrip_of_fields (fun _ => rfl) (one_congr (.illegal38Word m) d r)

theorem RoundTrip.illegal38Imm (m : CondMode) (d r : Reg) (i : Word) : RoundTrip.Statement (.illegal38Imm m d r i) :=
  roundTrip_of_fields nofun (one_congr (fun a b => .illegal38Imm m a b i) d r)

theorem RoundTrip.illegal39Word (m : CondMode) (d : Reg) (r : Reg) : RoundTrip.Statement (.illegal39Word m d r) :=
  roundTrip_of_fields (fun _ => rfl) (one_congr (.illegal39Word m) d r)

theorem RoundTrip.illegal39Imm (m : CondMode) (d r : Reg) (i : Word) : RoundTrip.Statement (.illegal39Imm m d r i) :=
  roundTrip_of_fields nofun (one_congr (fun a b => .illegal39Imm m a b i) d r)

theorem RoundTrip.illegal3AWord (m : CondMode) (d : Reg) (r : Reg) : RoundTrip.Statement (.illegal3AWord m d r) :=
  roundTrip_of_fields (fun _ => rfl) (one_congr (.illegal3AWord m) d r)

theorem RoundTrip.illegal3AImm (m : CondMode) (d r : Reg) (i : Word) : RoundTrip.Statement (.illegal3AImm m d r i) :=
  roundTrip_of_fields nofun (one_congr (fun a b => .illegal3AImm m a b i) d r)

theorem RoundTrip.illegal3BWord (m : CondMode) (d : Reg) (r : Reg) : RoundTrip.Statement (.illegal3BWord m d r) :=
  roundTrip_of_fields (fun _ => rfl) (one_congr (.illegal3BWord m) d r)

theorem RoundTrip.illegal3BImm (m : CondMode) (d r : Reg) (i : Word) : RoundTrip.Statement (.illegal3BImm m d r i) :=
  roundTrip_of_fields nofun (one_congr (fun a b => .illegal3BImm m a b i) d r)

theorem RoundTrip.illegal3CWord (m : CondMode) (d : Reg) (r : Reg) : RoundTrip.Statement (.illegal3CWord m d r) :=
  roundTrip_of_fields (fun _ => rfl) (one_congr (.illegal3CWord m) d r)

theorem RoundTrip.illegal3CImm (m : CondMode) (d r : Reg) (i : Word) : RoundTrip.Statement (.illegal3CImm m d r i) :=
  roundTrip_of_fields nofun (one_congr (fun a b => .illegal3CImm m a b i) d r)

theorem RoundTrip.illegal3DWord (m : CondMode) (d : Reg) (r : Reg) : RoundTrip.Statement (.illegal3DWord m d r) :=
  roundTrip_of_fields (fun _ => rfl) (one_congr (.illegal3DWord m) d r)

theorem RoundTrip.illegal3DImm (m : CondMode) (d r : Reg) (i : Word) : RoundTrip.Statement (.illegal3DImm m d r i) :=
  roundTrip_of_fields nofun (one_congr (fun a b => .illegal3DImm m a b i) d r)

theorem RoundTrip.illegal3EWord (m : CondMode) (d : Reg) (r : Reg) : RoundTrip.Statement (.illegal3EWord m d r) :=
  roundTrip_of_fields (fun _ => rfl) (one_congr (.illegal3EWord m) d r)

theorem RoundTrip.illegal3EImm (m : CondMode) (d r : Reg) (i : Word) : RoundTrip.Statement (.illegal3EImm m d r i) :=
  roundTrip_of_fields nofun (one_congr (fun a b => .illegal3EImm m a b i) d r)

theorem RoundTrip.illegal3FWord (m : CondMode) (d : Reg) (r : Reg) : RoundTrip.Statement (.illegal3FWord m d r) :=
  roundTrip_of_fields (fun _ => rfl) (one_congr (.illegal3FWord m) d r)

theorem RoundTrip.illegal3FImm (m : CondMode) (d r : Reg) (i : Word) : RoundTrip.Statement (.illegal3FImm m d r i) :=
  roundTrip_of_fields nofun (one_congr (fun a b => .illegal3FImm m a b i) d r)

end Sys2Proof.Laws
end

