-- ==== Sys2Proof/Tests/Slice0.lean ====
section
/-! SUPPORT. Tests: each expected result is the spec's own (spec/95_test_vectors.md, the encodings of spec/30_encoding.md
R92, the examples of the rules), and for each statement with hypotheses a witness that something meets them. -/

namespace Sys2Proof.Tests

open Sys2Proof Sys2Proof.Machine

/-! ## WellFormed: an ill-formed term for each check (spec/30_encoding.md R93, R94) -/

/-- `MOV [imm], src` with a dst field that is not 0. -/
theorem test_illformed_dst : wellFormed (.movAbsReg .always .r1 .r2 0x0300) = false
    ∧ dstWellFormed (.movAbsReg .always .r1 .r2 0x0300) = false := by decide

/-- `NUL $R1` with a src field that is not 0. -/
theorem test_illformed_src : wellFormed (.nul .always .r1 .r6) = false
    ∧ srcWellFormed (.nul .always .r1 .r6) = false := by decide

/-- SFL uses its dst field, as an index, and not its src field. -/
theorem test_illformed_sfl : wellFormed (.sfl .always .setS .r0) = true ∧ wellFormed (.sfl .always .setS .r1) = false := by
  decide

/-- An unused pair uses neither field. -/
theorem test_illformed_unused : wellFormed (.illegal3FImm .never .r0 .r0 0xBEEF) = true
    ∧ wellFormed (.illegal3FImm .never .r1 .r0 0xBEEF) = false := by decide

/-- Used fields are free: every register is well-formed there. -/
theorem test_wellformed_used : wellFormed (.movRegReg .c .r6 .r7) = true
    ∧ wellFormed (.tmcReg .always .r0 .r6) = true := by decide

/-! ## Decoding: each word written out from its row of the opcode map (spec/30_encoding.md R81, R92) as op, I, M = 101
(`C.`), dst = 011, src = 110 -/

/-- The words of a list decode to the instructions beside them. -/
def allDecode (next : Word) (ws : List (Word × Instr)) : Bool :=
  ws.all fun p => decodeWords p.1 next == p.2

theorem test_decode_00_to_07 :
    allDecode 0xBEEF [
      (0b000000_0_101_011_110, .movRegReg .c .r3 .r6),
      (0b000000_1_101_011_110, .movRegImm .c .r3 .r6 0xBEEF),
      (0b000001_0_101_011_110, .movRegInd .c .r3 .r6),
      (0b000001_1_101_011_110, .movRegAbs .c .r3 .r6 0xBEEF),
      (0b000010_0_101_011_110, .movIndReg .c .r3 .r6),
      (0b000010_1_101_011_110, .movIndImm .c .r3 .r6 0xBEEF),
      (0b000011_0_101_011_110, .movIndInd .c .r3 .r6),
      (0b000011_1_101_011_110, .movIndAbs .c .r3 .r6 0xBEEF),
      (0b000100_0_101_011_110, .movRegPostInc .c .r3 .r6),
      (0b000100_1_101_011_110, .movAbsReg .c .r3 .r6 0xBEEF),
      (0b000101_0_101_011_110, .movPostIncReg .c .r3 .r6),
      (0b000101_1_101_011_110, .movAbsInd .c .r3 .r6 0xBEEF),
      (0b000110_0_101_011_110, .mvl .c .r3 .r6),
      (0b000110_1_101_011_110, .movRegDisp .c .r3 .r6 0xBEEF),
      (0b000111_0_101_011_110, .mvh .c .r3 .r6),
      (0b000111_1_101_011_110, .movIndDisp .c .r3 .r6 0xBEEF)] = true := by
  decide

theorem test_decode_08_to_0f :
    allDecode 0xBEEF [
      (0b001000_0_101_011_110, .nul .c .r3 .r6),
      (0b001000_1_101_011_110, .movDispReg .c .r3 .r6 0xBEEF),
      (0b001001_0_101_011_110, .mkw .c .r3 .r6),
      (0b001001_1_101_011_110, .movDispInd .c .r3 .r6 0xBEEF),
      (0b001010_0_101_011_110, .movRegSw .c .r3 .r6),
      (0b001010_1_101_011_110, .movAbsSw .c .r3 .r6 0xBEEF),
      (0b001011_0_101_011_110, .movSwReg .c .r3 .r6),
      (0b001011_1_101_011_110, .movSwImm .c .r3 .r6 0xBEEF),
      (0b001100_0_101_011_110, .movPostDecReg .c .r3 .r6),
      (0b001100_1_101_011_110, .movPostDecImm .c .r3 .r6 0xBEEF),
      (0b001101_0_101_011_110, .movPostDecSw .c .r3 .r6),
      (0b001101_1_101_011_110, .outAbsReg .c .r3 .r6 0xBEEF),
      (0b001110_0_101_011_110, .movRegPreInc .c .r3 .r6),
      (0b001110_1_101_011_110, .illegal0EImm .c .r3 .r6 0xBEEF),
      (0b001111_0_101_011_110, .movSwPreInc .c .r3 .r6),
      (0b001111_1_101_011_110, .illegal0FImm .c .r3 .r6 0xBEEF)] = true := by
  decide

theorem test_decode_10_to_17 :
    allDecode 0xBEEF [
      (0b010000_0_101_011_110, .addReg .c .r3 .r6),
      (0b010000_1_101_011_110, .addImm .c .r3 .r6 0xBEEF),
      (0b010001_0_101_011_110, .adcReg .c .r3 .r6),
      (0b010001_1_101_011_110, .adcImm .c .r3 .r6 0xBEEF),
      (0b010010_0_101_011_110, .assReg .c .r3 .r6),
      (0b010010_1_101_011_110, .assImm .c .r3 .r6 0xBEEF),
      (0b010011_0_101_011_110, .subReg .c .r3 .r6),
      (0b010011_1_101_011_110, .illegal13Imm .c .r3 .r6 0xBEEF),
      (0b010100_0_101_011_110, .sbcReg .c .r3 .r6),
      (0b010100_1_101_011_110, .illegal14Imm .c .r3 .r6 0xBEEF),
      (0b010101_0_101_011_110, .incReg .c .r3 .r6),
      (0b010101_1_101_011_110, .illegal15Imm .c .r3 .r6 0xBEEF),
      (0b010110_0_101_011_110, .decReg .c .r3 .r6),
      (0b010110_1_101_011_110, .illegal16Imm .c .r3 .r6 0xBEEF),
      (0b010111_0_101_011_110, .shlReg .c .r3 .r6),
      (0b010111_1_101_011_110, .illegal17Imm .c .r3 .r6 0xBEEF)] = true := by
  decide

theorem test_decode_18_to_1f :
    allDecode 0xBEEF [
      (0b011000_0_101_011_110, .rolReg .c .r3 .r6),
      (0b011000_1_101_011_110, .illegal18Imm .c .r3 .r6 0xBEEF),
      (0b011001_0_101_011_110, .shrReg .c .r3 .r6),
      (0b011001_1_101_011_110, .illegal19Imm .c .r3 .r6 0xBEEF),
      (0b011010_0_101_011_110, .rorReg .c .r3 .r6),
      (0b011010_1_101_011_110, .illegal1AImm .c .r3 .r6 0xBEEF),
      (0b011011_0_101_011_110, .notReg .c .r3 .r6),
      (0b011011_1_101_011_110, .illegal1BImm .c .r3 .r6 0xBEEF),
      (0b011100_0_101_011_110, .negReg .c .r3 .r6),
      (0b011100_1_101_011_110, .illegal1CImm .c .r3 .r6 0xBEEF),
      (0b011101_0_101_011_110, .anlReg .c .r3 .r6),
      (0b011101_1_101_011_110, .anlImm .c .r3 .r6 0xBEEF),
      (0b011110_0_101_011_110, .orlReg .c .r3 .r6),
      (0b011110_1_101_011_110, .orlImm .c .r3 .r6 0xBEEF),
      (0b011111_0_101_011_110, .xorReg .c .r3 .r6),
      (0b011111_1_101_011_110, .xorImm .c .r3 .r6 0xBEEF)] = true := by
  decide

theorem test_decode_20_to_27 :
    allDecode 0xBEEF [
      (0b100000_0_101_011_110, .sfl .c .clearI .r6),
      (0b100000_1_101_011_110, .illegal20Imm .c .r3 .r6 0xBEEF),
      (0b100001_0_101_011_110, .sexReg .c .r3 .r6),
      (0b100001_1_101_011_110, .sexImm .c .r3 .r6 0xBEEF),
      (0b100010_0_101_011_110, .tmcReg .c .r3 .r6),
      (0b100010_1_101_011_110, .tmcImm .c .r3 .r6 0xBEEF),
      (0b100011_0_101_011_110, .cmpReg .c .r3 .r6),
      (0b100011_1_101_011_110, .cmpImm .c .r3 .r6 0xBEEF),
      (0b100100_0_101_011_110, .tstReg .c .r3 .r6),
      (0b100100_1_101_011_110, .tstImm .c .r3 .r6 0xBEEF),
      (0b100101_0_101_011_110, .outIndReg .c .r3 .r6),
      (0b100101_1_101_011_110, .outIndImm .c .r3 .r6 0xBEEF),
      (0b100110_0_101_011_110, .inRegInd .c .r3 .r6),
      (0b100110_1_101_011_110, .inRegAbs .c .r3 .r6 0xBEEF),
      (0b100111_0_101_011_110, .illegal27Word .c .r3 .r6),
      (0b100111_1_101_011_110, .illegal27Imm .c .r3 .r6 0xBEEF)] = true := by
  decide

theorem test_decode_28_to_2f :
    allDecode 0xBEEF [
      (0b101000_0_101_011_110, .illegal28Word .c .r3 .r6),
      (0b101000_1_101_011_110, .illegal28Imm .c .r3 .r6 0xBEEF),
      (0b101001_0_101_011_110, .illegal29Word .c .r3 .r6),
      (0b101001_1_101_011_110, .illegal29Imm .c .r3 .r6 0xBEEF),
      (0b101010_0_101_011_110, .illegal2AWord .c .r3 .r6),
      (0b101010_1_101_011_110, .illegal2AImm .c .r3 .r6 0xBEEF),
      (0b101011_0_101_011_110, .illegal2BWord .c .r3 .r6),
      (0b101011_1_101_011_110, .illegal2BImm .c .r3 .r6 0xBEEF),
      (0b101100_0_101_011_110, .illegal2CWord .c .r3 .r6),
      (0b101100_1_101_011_110, .illegal2CImm .c .r3 .r6 0xBEEF),
      (0b101101_0_101_011_110, .illegal2DWord .c .r3 .r6),
      (0b101101_1_101_011_110, .illegal2DImm .c .r3 .r6 0xBEEF),
      (0b101110_0_101_011_110, .illegal2EWord .c .r3 .r6),
      (0b101110_1_101_011_110, .illegal2EImm .c .r3 .r6 0xBEEF),
      (0b101111_0_101_011_110, .illegal2FWord .c .r3 .r6),
      (0b101111_1_101_011_110, .illegal2FImm .c .r3 .r6 0xBEEF)] = true := by
  decide

theorem test_decode_30_to_37 :
    allDecode 0xBEEF [
      (0b110000_0_101_011_110, .illegal30Word .c .r3 .r6),
      (0b110000_1_101_011_110, .illegal30Imm .c .r3 .r6 0xBEEF),
      (0b110001_0_101_011_110, .illegal31Word .c .r3 .r6),
      (0b110001_1_101_011_110, .illegal31Imm .c .r3 .r6 0xBEEF),
      (0b110010_0_101_011_110, .illegal32Word .c .r3 .r6),
      (0b110010_1_101_011_110, .illegal32Imm .c .r3 .r6 0xBEEF),
      (0b110011_0_101_011_110, .illegal33Word .c .r3 .r6),
      (0b110011_1_101_011_110, .illegal33Imm .c .r3 .r6 0xBEEF),
      (0b110100_0_101_011_110, .illegal34Word .c .r3 .r6),
      (0b110100_1_101_011_110, .illegal34Imm .c .r3 .r6 0xBEEF),
      (0b110101_0_101_011_110, .illegal35Word .c .r3 .r6),
      (0b110101_1_101_011_110, .illegal35Imm .c .r3 .r6 0xBEEF),
      (0b110110_0_101_011_110, .illegal36Word .c .r3 .r6),
      (0b110110_1_101_011_110, .illegal36Imm .c .r3 .r6 0xBEEF),
      (0b110111_0_101_011_110, .illegal37Word .c .r3 .r6),
      (0b110111_1_101_011_110, .illegal37Imm .c .r3 .r6 0xBEEF)] = true := by
  decide

theorem test_decode_38_to_3f :
    allDecode 0xBEEF [
      (0b111000_0_101_011_110, .illegal38Word .c .r3 .r6),
      (0b111000_1_101_011_110, .illegal38Imm .c .r3 .r6 0xBEEF),
      (0b111001_0_101_011_110, .illegal39Word .c .r3 .r6),
      (0b111001_1_101_011_110, .illegal39Imm .c .r3 .r6 0xBEEF),
      (0b111010_0_101_011_110, .illegal3AWord .c .r3 .r6),
      (0b111010_1_101_011_110, .illegal3AImm .c .r3 .r6 0xBEEF),
      (0b111011_0_101_011_110, .illegal3BWord .c .r3 .r6),
      (0b111011_1_101_011_110, .illegal3BImm .c .r3 .r6 0xBEEF),
      (0b111100_0_101_011_110, .illegal3CWord .c .r3 .r6),
      (0b111100_1_101_011_110, .illegal3CImm .c .r3 .r6 0xBEEF),
      (0b111101_0_101_011_110, .illegal3DWord .c .r3 .r6),
      (0b111101_1_101_011_110, .illegal3DImm .c .r3 .r6 0xBEEF),
      (0b111110_0_101_011_110, .illegal3EWord .c .r3 .r6),
      (0b111110_1_101_011_110, .illegal3EImm .c .r3 .r6 0xBEEF),
      (0b111111_0_101_011_110, .illegal3FWord .c .r3 .r6),
      (0b111111_1_101_011_110, .illegal3FImm .c .r3 .r6 0xBEEF)] = true := by
  decide

/-- Octets: bits 7:0 first (log 1); what follows the instruction is left; a stream that ends early is rejected by name. -/
theorem test_decode_octets :
    decode [0x0A, 0x00, 0x77] = .ok (.movRegReg .always .r1 .r2, [0x77])
      ∧ decode [0x08, 0x02, 0x34, 0x12] = .ok (.movRegImm .always .r1 .r0 0x1234, [])
      ∧ decode [0x0A] = .error .noInstructionWord
      ∧ decode [0x08, 0x02, 0x34] = .error .noImmediateWord := by decide

/-- The table's numbering: the second word is bits 31 to 16, and bits above `nbits` are 0. -/
theorem test_decodeTableWord :
    decodeTableWord 32 0x12340208 = some (.movRegImm .always .r1 .r0 0x1234)
      ∧ decodeTableWord 16 0x12340208 = some (.movRegImm .always .r1 .r0 0x0000)
      ∧ decodeTableWord 16 0x000A = some (.movRegReg .always .r1 .r2) := by decide

/-- The instruction of the table's word runs as the first one after reset. -/
theorem test_withFetchWord :
    (match step (State.reset.withFetchWord 32 0x12340208) with
      | .next t => t.reg .r1 == 0x1234 && t.reg .r7 == 0x0002
      | _ => false) = true := by
  decide

/-! ## Condition modes (spec/95_test_vectors.md 2.1): which of the eight execute with C, Z and S all clear, all set -/

theorem test_condition_modes :
    (([.always, .nc, .nz, .ns, .never, .c, .z, .s] : List CondMode).map fun m => (condPass m 0x0000, condPass m 0x0007))
      = [(true, true), (true, false), (true, false), (true, false), (false, false), (false, true), (false, true),
         (false, true)] := by
  decide

/-! ## One step of each instruction, from spec/95_test_vectors.md, sections 2.1 to 2.9 -/

/-- The instruction at 0x0100, everything that is not listed zero. -/
def start (words : List Word) (regs : List (Reg × Word)) (sw : Word) (mem : List (Word × Word))
    (irq : List (BitVec 8)) (io : List Word) : State :=
  let s := regs.foldl (fun s p => s.setReg p.1 p.2) ((State.reset.setSw sw).setPc 0x0100)
  let s := mem.foldl (fun s p => s.store p.1 p.2) s
  { s.loadImage 0x0100 words with irqScript := irq, ioScript := io }

/-- One step leaves the registers and words of memory listed, SW and the bus accesses as given, and all else as before. -/
def endsIn (s : State) (regs : List (Reg × Word)) (sw : Word) (mem : List (Word × Word)) (trace : List IoEvent) :
    Bool :=
  match step s with
  | .next t =>
    t.regs == (regs.foldl (fun s p => s.setReg p.1 p.2) s).regs && t.sw == sw
      && t.mem == (mem.foldl (fun s p => s.store p.1 p.2) s).mem && t.ioTrace == trace && t.draws == 0
  | _ => false

/-- `MOV $R1, $R7`; `MOV $R6, $R0 (user)`. -/
theorem test_movRegReg :
    (endsIn (start [0x000F] [(.r1, 0x0000)] 0x0000 [] [] [])
      [(.r1, 0x0101), (.r7, 0x0101)] 0x0000 [] []
      && endsIn (start [0x0030] [(.r0, 0x0005), (.r6, 0x2000)] 0x0010 [] [] [])
      [(.r6, 0x1FFD), (.r7, 0x0004)] 0x0000 [(0x1FFE, 0x0001), (0x1FFF, 0x0010), (0x2000, 0x0101)] []) = true := by
  decide

/-- `MOV $R1, 0xABCD`; `MOV $R7, 0x0300`. -/
theorem test_movRegImm :
    (endsIn (start [0x0208, 0xABCD] [(.r1, 0x0000)] 0x0000 [] [] [])
      [(.r1, 0xABCD), (.r7, 0x0102)] 0x0000 [] []
      && endsIn (start [0x0238, 0x0300] [] 0x0000 [] [] [])
      [(.r7, 0x0300)] 0x0000 [] []) = true := by
  decide

/-- `MOV $R1, [$R2]`; `MOV $R1, [$R1]`. -/
theorem test_movRegInd :
    (endsIn (start [0x040A] [(.r1, 0x0000), (.r2, 0x0200)] 0x0000 [(0x0200, 0x1111)] [] [])
      [(.r1, 0x1111), (.r7, 0x0101)] 0x0000 [] []
      && endsIn (start [0x0409] [(.r1, 0x0200)] 0x0000 [(0x0200, 0x1111)] [] [])
      [(.r1, 0x1111), (.r7, 0x0101)] 0x0000 [] []) = true := by
  decide

/-- `MOV $R1, [0x0200]`. -/
theorem test_movRegAbs :
    (endsIn (start [0x0608, 0x0200] [(.r1, 0x0000)] 0x0000 [(0x0200, 0x1111)] [] [])
      [(.r1, 0x1111), (.r7, 0x0102)] 0x0000 [] []) = true := by
  decide

/-- `MOV [$R1], $R2`. -/
theorem test_movIndReg :
    (endsIn (start [0x080A] [(.r1, 0x0200), (.r2, 0x2222)] 0x0000 [] [] [])
      [(.r7, 0x0101)] 0x0000 [(0x0200, 0x2222)] []) = true := by
  decide

/-- `MOV [$R1], 0x3333`. -/
theorem test_movIndImm :
    (endsIn (start [0x0A08, 0x3333] [(.r1, 0x0200)] 0x0000 [] [] [])
      [(.r7, 0x0102)] 0x0000 [(0x0200, 0x3333)] []) = true := by
  decide

/-- `MOV [$R1], [$R2]`. -/
theorem test_movIndInd :
    (endsIn (start [0x0C0A] [(.r1, 0x0200), (.r2, 0x0201)] 0x0000 [(0x0201, 0x4444)] [] [])
      [(.r7, 0x0101)] 0x0000 [(0x0200, 0x4444)] []) = true := by
  decide

/-- `MOV [$R1], [0x0201]`. -/
theorem test_movIndAbs :
    (endsIn (start [0x0E08, 0x0201] [(.r1, 0x0200)] 0x0000 [(0x0201, 0x4444)] [] [])
      [(.r7, 0x0102)] 0x0000 [(0x0200, 0x4444)] []) = true := by
  decide

/-- `MOV $R1, [$R2++]`; `MOV $R1, [$R1++]`. -/
theorem test_movRegPostInc :
    (endsIn (start [0x100A] [(.r1, 0x0000), (.r2, 0xFFFF)] 0x0000 [(0xFFFF, 0x7777)] [] [])
      [(.r1, 0x7777), (.r2, 0x0000), (.r7, 0x0101)] 0x0000 [] []
      && endsIn (start [0x1009] [(.r1, 0x0200)] 0x0000 [(0x0200, 0x1111)] [] [])
      [(.r1, 0x1111), (.r7, 0x0101)] 0x0000 [] []) = true := by
  decide

/-- `MOV [0x0200], $R2`. -/
theorem test_movAbsReg :
    (endsIn (start [0x1202, 0x0200] [(.r2, 0x5555)] 0x0000 [] [] [])
      [(.r7, 0x0102)] 0x0000 [(0x0200, 0x5555)] []) = true := by
  decide

/-- `MOV [$R1++], $R2`; `MOV [$R1++], $R1`. -/
theorem test_movPostIncReg :
    (endsIn (start [0x140A] [(.r1, 0x0200), (.r2, 0x6666)] 0x0000 [] [] [])
      [(.r1, 0x0201), (.r7, 0x0101)] 0x0000 [(0x0200, 0x6666)] []
      && endsIn (start [0x1409] [(.r1, 0x0200)] 0x0000 [] [] [])
      [(.r1, 0x0201), (.r7, 0x0101)] 0x0000 [(0x0200, 0x0200)] []) = true := by
  decide

/-- `MOV [0x0200], [$R2]`. -/
theorem test_movAbsInd :
    (endsIn (start [0x1602, 0x0200] [(.r2, 0x0201)] 0x0000 [(0x0201, 0x4444)] [] [])
      [(.r7, 0x0102)] 0x0000 [(0x0200, 0x4444)] []) = true := by
  decide

/-- `MVL $R1, $R2`. -/
theorem test_mvl :
    (endsIn (start [0x180A] [(.r1, 0xFFFF), (.r2, 0xABCD)] 0x0007 [] [] [])
      [(.r1, 0x00CD), (.r7, 0x0101)] 0x0007 [] []) = true := by
  decide

/-- `MOV $R1, [$R2+0x0010]`; `MOV $R1, [$R2+0xFFFF]`. -/
theorem test_movRegDisp :
    (endsIn (start [0x1A0A, 0x0010] [(.r1, 0x0000), (.r2, 0x01F0)] 0x0000 [(0x0200, 0x1111)] [] [])
      [(.r1, 0x1111), (.r7, 0x0102)] 0x0000 [] []
      && endsIn (start [0x1A0A, 0xFFFF] [(.r1, 0x0000), (.r2, 0x0201)] 0x0000 [(0x0200, 0x1111)] [] [])
      [(.r1, 0x1111), (.r7, 0x0102)] 0x0000 [] []) = true := by
  decide

/-- `MVH $R1, $R2`. -/
theorem test_mvh :
    (endsIn (start [0x1C0A] [(.r1, 0xFFFF), (.r2, 0xABCD)] 0x0007 [] [] [])
      [(.r1, 0x00AB), (.r7, 0x0101)] 0x0007 [] []) = true := by
  decide

/-- `MOV [$R1], [$R2+0x0010]`. -/
theorem test_movIndDisp :
    (endsIn (start [0x1E0A, 0x0010] [(.r1, 0x0300), (.r2, 0x01F0)] 0x0000 [(0x0200, 0x1111)] [] [])
      [(.r7, 0x0102)] 0x0000 [(0x0300, 0x1111)] []) = true := by
  decide

/-- `NUL $R1`; `NUL $R1 with src field 6 (user)`. -/
theorem test_nul :
    (endsIn (start [0x2008] [(.r1, 0xFFFF)] 0x0004 [] [] [])
      [(.r1, 0x0000), (.r7, 0x0101)] 0x0004 [] []
      && endsIn (start [0x200E] [(.r1, 0xFFFF), (.r6, 0x2000)] 0x0010 [] [] [])
      [(.r1, 0x0000), (.r7, 0x0101)] 0x0010 [] []) = true := by
  decide

/-- `MOV [$R1+0x0010], $R2`. -/
theorem test_movDispReg :
    (endsIn (start [0x220A, 0x0010] [(.r1, 0x01F0), (.r2, 0x8888)] 0x0000 [] [] [])
      [(.r7, 0x0102)] 0x0000 [(0x0200, 0x8888)] []) = true := by
  decide

/-- `MKW $R1, $R2`; `MKW $R1, $R2`. -/
theorem test_mkw :
    (endsIn (start [0x240A] [(.r1, 0x00CD), (.r2, 0x12AB)] 0x0000 [] [] [])
      [(.r1, 0xABCD), (.r7, 0x0101)] 0x0000 [] []
      && endsIn (start [0x240A] [(.r1, 0xF0CD), (.r2, 0x000F)] 0x0000 [] [] [])
      [(.r1, 0xFFCD), (.r7, 0x0101)] 0x0000 [] []) = true := by
  decide

/-- `MOV [$R1+0x0010], [$R2]`. -/
theorem test_movDispInd :
    (endsIn (start [0x260A, 0x0010] [(.r1, 0x01F0), (.r2, 0x0300)] 0x0000 [(0x0300, 0x4321)] [] [])
      [(.r7, 0x0102)] 0x0000 [(0x0200, 0x4321)] []) = true := by
  decide

/-- `MOV $R1, $SW`. -/
theorem test_movRegSw :
    (endsIn (start [0x2808] [(.r1, 0x0000)] 0x0105 [] [] [])
      [(.r1, 0x0105), (.r7, 0x0101)] 0x0105 [] []) = true := by
  decide

/-- `MOV [0x0300], $SW`; `MOV [0x0300], $SW with fields 6,6 (user)`. -/
theorem test_movAbsSw :
    (endsIn (start [0x2A00, 0x0300] [] 0x0006 [] [] [])
      [(.r7, 0x0102)] 0x0006 [(0x0300, 0x0006)] []
      && endsIn (start [0x2A36, 0x0300] [(.r6, 0x2000)] 0x0012 [] [] [])
      [(.r7, 0x0102)] 0x0012 [(0x0300, 0x0012)] []) = true := by
  decide

/-- `MOV $SW, $R1`; `MOV $SW, $R1`. -/
theorem test_movSwReg :
    (endsIn (start [0x2C08] [(.r1, 0xFFFF)] 0x0000 [] [] [])
      [(.r7, 0x0101)] 0xFF3F [] []
      && endsIn (start [0x2C08] [(.r1, 0xFFFF)] 0x0010 [] [] [])
      [(.r7, 0x0101)] 0x0017 [] []) = true := by
  decide

/-- `MOV $SW, 0x0108`; `MOV $SW, 0x0010`. -/
theorem test_movSwImm :
    (endsIn (start [0x2E00, 0x0108] [] 0x0000 [] [] [])
      [(.r7, 0x0102)] 0x0108 [] []
      && endsIn (start [0x2E00, 0x0010] [] 0x0007 [] [] [])
      [(.r7, 0x0102)] 0x0010 [] []) = true := by
  decide

/-- `MOV [$R1--], $R1`; `MOV [$R7--], $R2`. -/
theorem test_movPostDecReg :
    (endsIn (start [0x3009] [(.r1, 0x0200)] 0x0000 [] [] [])
      [(.r1, 0x01FF), (.r7, 0x0101)] 0x0000 [(0x0200, 0x0200)] []
      && endsIn (start [0x303A] [(.r2, 0xAAAA)] 0x0000 [] [] [])
      [(.r7, 0x0100)] 0x0000 [(0x0101, 0xAAAA)] []) = true := by
  decide

/-- `MOV [$R1--], 0x0042`. -/
theorem test_movPostDecImm :
    (endsIn (start [0x3208, 0x0042] [(.r1, 0x0200)] 0x0000 [] [] [])
      [(.r1, 0x01FF), (.r7, 0x0102)] 0x0000 [(0x0200, 0x0042)] []) = true := by
  decide

/-- `MOV [$R1--], $SW`. -/
theorem test_movPostDecSw :
    (endsIn (start [0x3408] [(.r1, 0x0200)] 0x0003 [] [] [])
      [(.r1, 0x01FF), (.r7, 0x0101)] 0x0003 [(0x0200, 0x0003)] []) = true := by
  decide

/-- `MOV (0x0010), $R2`. -/
theorem test_outAbsReg :
    (endsIn (start [0x3602, 0x0010] [(.r2, 0x0041)] 0x0000 [] [] [])
      [(.r7, 0x0102)] 0x0000 [] [.write 0x0010 0x0041]) = true := by
  decide

/-- `MOV $R1, [++$R2]`; `MOV $R1, [++$R1]`. -/
theorem test_movRegPreInc :
    (endsIn (start [0x380A] [(.r1, 0x0000), (.r2, 0xFFFF)] 0x0000 [(0x0000, 0x0ABC)] [] [])
      [(.r1, 0x0ABC), (.r2, 0x0000), (.r7, 0x0101)] 0x0000 [] []
      && endsIn (start [0x3809] [(.r1, 0x01FF)] 0x0000 [(0x0200, 0x0005)] [] [])
      [(.r1, 0x0005), (.r7, 0x0101)] 0x0000 [] []) = true := by
  decide

/-- `(op 0x0E, I=1)`. -/
theorem test_illegal0EImm :
    (endsIn (start [0x3A0A, 0x0000] [(.r1, 0x0000), (.r2, 0x01FF), (.r6, 0x2000)] 0x0000 [] [] [])
      [(.r6, 0x1FFD), (.r7, 0x0004)] 0x0000 [(0x1FFE, 0x0000), (0x1FFF, 0x0000), (0x2000, 0x0102)] []) = true := by
  decide

/-- `MOV $SW, [++$R2]`; `MOV $SW, [++$R2]`. -/
theorem test_movSwPreInc :
    (endsIn (start [0x3C02] [(.r2, 0x01FF)] 0x0000 [(0x0200, 0x00FF)] [] [])
      [(.r2, 0x0200), (.r7, 0x0101)] 0x003F [] []
      && endsIn (start [0x3C02] [(.r2, 0x01FF)] 0x0010 [(0x0200, 0xFFEF)] [] [])
      [(.r2, 0x0200), (.r7, 0x0101)] 0x0017 [] []) = true := by
  decide

/-- `ADD $R1, $R2`; `ADD $R1, $R1`. -/
theorem test_addReg :
    (endsIn (start [0x400A] [(.r1, 0x7FFF), (.r2, 0x0001)] 0x0001 [] [] [])
      [(.r1, 0x8000), (.r7, 0x0101)] 0x0004 [] []
      && endsIn (start [0x4009] [(.r1, 0x8001)] 0x0000 [] [] [])
      [(.r1, 0x0002), (.r7, 0x0101)] 0x0001 [] []) = true := by
  decide

/-- `ADD $R1, 0xFFFB`; `ADD $R1, 0x0000`. -/
theorem test_addImm :
    (endsIn (start [0x4208, 0xFFFB] [(.r1, 0x0005)] 0x0000 [] [] [])
      [(.r1, 0x0000), (.r7, 0x0102)] 0x0003 [] []
      && endsIn (start [0x4208, 0x0000] [(.r1, 0x0005)] 0x0001 [] [] [])
      [(.r7, 0x0102)] 0x0000 [] []) = true := by
  decide

/-- `ADC $R1, $R2`; `ADC $R1, $R2`. -/
theorem test_adcReg :
    (endsIn (start [0x440A] [(.r1, 0xFFFF), (.r2, 0xFFFF)] 0x0001 [] [] [])
      [(.r7, 0x0101)] 0x0005 [] []
      && endsIn (start [0x440A] [(.r1, 0x0000), (.r2, 0x0000)] 0x0001 [] [] [])
      [(.r1, 0x0001), (.r7, 0x0101)] 0x0000 [] []) = true := by
  decide

/-- `ADC $R1, 0xFFFE`. -/
theorem test_adcImm :
    (endsIn (start [0x4608, 0xFFFE] [(.r1, 0x0001)] 0x0001 [] [] [])
      [(.r1, 0x0000), (.r7, 0x0102)] 0x0003 [] []) = true := by
  decide

/-- `ASS $R1, $R2`. -/
theorem test_assReg :
    (endsIn (start [0x480A] [(.r1, 0xFFFF), (.r2, 0x0001)] 0x0004 [] [] [])
      [(.r1, 0x0000), (.r7, 0x0101)] 0x0004 [] []) = true := by
  decide

/-- `ASS $R7, 0xFFFE`; `ASS $R7, 0x0010`. -/
theorem test_assImm :
    (endsIn (start [0x4A38, 0xFFFE] [] 0x0000 [] [] [])
      [(.r7, 0x0100)] 0x0000 [] []
      && endsIn (start [0x4A38, 0x0010] [] 0x0007 [] [] [])
      [(.r7, 0x0112)] 0x0007 [] []) = true := by
  decide

/-- `SUB $R1, $R2`; `SUB $R1, $R2`. -/
theorem test_subReg :
    (endsIn (start [0x4C0A] [(.r1, 0x0003), (.r2, 0x0005)] 0x0000 [] [] [])
      [(.r1, 0xFFFE), (.r7, 0x0101)] 0x0004 [] []
      && endsIn (start [0x4C0A] [(.r1, 0x0005), (.r2, 0x0000)] 0x0000 [] [] [])
      [(.r7, 0x0101)] 0x0001 [] []) = true := by
  decide

/-- `SUB $R1, imm (op 0x13, I=1: unused)`. -/
theorem test_illegal13Imm :
    (endsIn (start [0x4E08, 0x0001] [(.r1, 0x0005), (.r6, 0x2000)] 0x0000 [] [] [])
      [(.r6, 0x1FFD), (.r7, 0x0004)] 0x0000 [(0x1FFE, 0x0000), (0x1FFF, 0x0000), (0x2000, 0x0102)] []) = true := by
  decide

/-- `SBC $R1, $R2`; `SBC $R1, $R2`. -/
theorem test_sbcReg :
    (endsIn (start [0x500A] [(.r1, 0x0000), (.r2, 0x0000)] 0x0000 [] [] [])
      [(.r1, 0xFFFF), (.r7, 0x0101)] 0x0004 [] []
      && endsIn (start [0x500A] [(.r1, 0x0005), (.r2, 0x0003)] 0x0000 [] [] [])
      [(.r1, 0x0001), (.r7, 0x0101)] 0x0001 [] []) = true := by
  decide

/-- `INC $R1, $R2`; `INC $R1, $R2`. -/
theorem test_incReg :
    (endsIn (start [0x540A] [(.r1, 0xAAAA), (.r2, 0x7FFF)] 0x0000 [] [] [])
      [(.r1, 0x8000), (.r7, 0x0101)] 0x0004 [] []
      && endsIn (start [0x540A] [(.r1, 0xAAAA), (.r2, 0xFFFF)] 0x0000 [] [] [])
      [(.r1, 0x0000), (.r7, 0x0101)] 0x0003 [] []) = true := by
  decide

/-- `DEC $R1, $R2`; `DEC $R1, $R2`. -/
theorem test_decReg :
    (endsIn (start [0x580A] [(.r1, 0xAAAA), (.r2, 0x0000)] 0x0000 [] [] [])
      [(.r1, 0xFFFF), (.r7, 0x0101)] 0x0004 [] []
      && endsIn (start [0x580A] [(.r1, 0xAAAA), (.r2, 0x8000)] 0x0000 [] [] [])
      [(.r1, 0x7FFF), (.r7, 0x0101)] 0x0001 [] []) = true := by
  decide

/-- `SHL $R1, $R2`; `SHL $R1, $R2`. -/
theorem test_shlReg :
    (endsIn (start [0x5C0A] [(.r1, 0xAAAA), (.r2, 0x8001)] 0x0001 [] [] [])
      [(.r1, 0x0002), (.r7, 0x0101)] 0x0001 [] []
      && endsIn (start [0x5C0A] [(.r1, 0xAAAA), (.r2, 0x4000)] 0x0001 [] [] [])
      [(.r1, 0x8000), (.r7, 0x0101)] 0x0004 [] []) = true := by
  decide

/-- `ROL $R1, $R2`; `ROL $R1, $R2`. -/
theorem test_rolReg :
    (endsIn (start [0x600A] [(.r1, 0xAAAA), (.r2, 0x8000)] 0x0000 [] [] [])
      [(.r1, 0x0000), (.r7, 0x0101)] 0x0003 [] []
      && endsIn (start [0x600A] [(.r1, 0xAAAA), (.r2, 0x0001)] 0x0001 [] [] [])
      [(.r1, 0x0003), (.r7, 0x0101)] 0x0000 [] []) = true := by
  decide

/-- `SHR $R1, $R2`; `SHR $R1, $R2`. -/
theorem test_shrReg :
    (endsIn (start [0x640A] [(.r1, 0xAAAA), (.r2, 0x8001)] 0x0000 [] [] [])
      [(.r1, 0x4000), (.r7, 0x0101)] 0x0001 [] []
      && endsIn (start [0x640A] [(.r1, 0xAAAA), (.r2, 0x0001)] 0x0000 [] [] [])
      [(.r1, 0x0000), (.r7, 0x0101)] 0x0003 [] []) = true := by
  decide

/-- `ROR $R1, $R2`; `ROR $R1, $R2`. -/
theorem test_rorReg :
    (endsIn (start [0x680A] [(.r1, 0xAAAA), (.r2, 0x0001)] 0x0000 [] [] [])
      [(.r1, 0x0000), (.r7, 0x0101)] 0x0003 [] []
      && endsIn (start [0x680A] [(.r1, 0xAAAA), (.r2, 0x8000)] 0x0001 [] [] [])
      [(.r1, 0xC000), (.r7, 0x0101)] 0x0004 [] []) = true := by
  decide

/-- `NOT $R1, $R2`; `NOT $R1, $R2`. -/
theorem test_notReg :
    (endsIn (start [0x6C0A] [(.r1, 0xAAAA), (.r2, 0x00FF)] 0x0001 [] [] [])
      [(.r1, 0xFF00), (.r7, 0x0101)] 0x0005 [] []
      && endsIn (start [0x6C0A] [(.r1, 0xAAAA), (.r2, 0xFFFF)] 0x0001 [] [] [])
      [(.r1, 0x0000), (.r7, 0x0101)] 0x0003 [] []) = true := by
  decide

/-- `NEG $R1, $R2`; `NEG $R1, $R2`. -/
theorem test_negReg :
    (endsIn (start [0x700A] [(.r1, 0xAAAA), (.r2, 0x0000)] 0x0000 [] [] [])
      [(.r1, 0x0000), (.r7, 0x0101)] 0x0003 [] []
      && endsIn (start [0x700A] [(.r1, 0xAAAA), (.r2, 0x8000)] 0x0000 [] [] [])
      [(.r1, 0x8000), (.r7, 0x0101)] 0x0004 [] []) = true := by
  decide

/-- `ANL $R1, $R2`. -/
theorem test_anlReg :
    (endsIn (start [0x740A] [(.r1, 0xF0F0), (.r2, 0xFF00)] 0x0001 [] [] [])
      [(.r1, 0xF000), (.r7, 0x0101)] 0x0005 [] []) = true := by
  decide

/-- `ANL $R1, 0x000F`. -/
theorem test_anlImm :
    (endsIn (start [0x7608, 0x000F] [(.r1, 0xF0F0)] 0x0000 [] [] [])
      [(.r1, 0x0000), (.r7, 0x0102)] 0x0002 [] []) = true := by
  decide

/-- `ORL $R1, $R2`. -/
theorem test_orlReg :
    (endsIn (start [0x780A] [(.r1, 0x00F0), (.r2, 0x8000)] 0x0001 [] [] [])
      [(.r1, 0x80F0), (.r7, 0x0101)] 0x0005 [] []) = true := by
  decide

/-- `ORL $R1, 0x0000`. -/
theorem test_orlImm :
    (endsIn (start [0x7A08, 0x0000] [(.r1, 0x0000)] 0x0000 [] [] [])
      [(.r7, 0x0102)] 0x0002 [] []) = true := by
  decide

/-- `XOR $R1, $R2`; `XOR $R1, $R1`. -/
theorem test_xorReg :
    (endsIn (start [0x7C0A] [(.r1, 0xAAAA), (.r2, 0xFFFF)] 0x0000 [] [] [])
      [(.r1, 0x5555), (.r7, 0x0101)] 0x0000 [] []
      && endsIn (start [0x7C09] [(.r1, 0x1234)] 0x0005 [] [] [])
      [(.r1, 0x0000), (.r7, 0x0101)] 0x0003 [] []) = true := by
  decide

/-- `XOR $R1, 0x8000`. -/
theorem test_xorImm :
    (endsIn (start [0x7E08, 0x8000] [(.r1, 0x0001)] 0x0000 [] [] [])
      [(.r1, 0x8001), (.r7, 0x0102)] 0x0004 [] []) = true := by
  decide

/-- `SFL 6 (user)`; `SFL 3 (user)`. -/
theorem test_sfl :
    (endsIn (start [0x8030] [] 0x0010 [] [] [])
      [(.r7, 0x0101)] 0x0014 [] []
      && endsIn (start [0x8018] [] 0x0018 [] [0] [])
      [(.r7, 0x0101)] 0x0018 [] []) = true := by
  decide

/-- `SFL (op 0x20, I=1: unused)`. -/
theorem test_illegal20Imm :
    (endsIn (start [0x8200, 0x0000] [(.r6, 0x2000)] 0x0000 [] [] [])
      [(.r6, 0x1FFD), (.r7, 0x0004)] 0x0000 [(0x1FFE, 0x0000), (0x1FFF, 0x0000), (0x2000, 0x0102)] []) = true := by
  decide

/-- `SEX $R1, $R1`; `SEX $R1, $R7`. -/
theorem test_sexReg :
    (endsIn (start [0x8409] [(.r1, 0x0200)] 0x0000 [] [] [])
      [(.r1, 0x01FF), (.r7, 0x01FF)] 0x0000 [(0x0200, 0x0101)] []
      && endsIn (start [0x840F] [(.r1, 0x0200)] 0x0000 [] [] [])
      [(.r1, 0x01FF), (.r7, 0x0101)] 0x0000 [(0x0200, 0x0101)] []) = true := by
  decide

/-- `SEX $R6, 0x0300`; `SEX $R6, 0x0300 (user)`. -/
theorem test_sexImm :
    (endsIn (start [0x8630, 0x0300] [(.r6, 0x2000)] 0x0000 [] [] [])
      [(.r6, 0x1FFF), (.r7, 0x0300)] 0x0000 [(0x2000, 0x0102)] []
      && endsIn (start [0x8630, 0x0300] [(.r6, 0x2000)] 0x0010 [] [] [])
      [(.r6, 0x1FFD), (.r7, 0x0004)] 0x0000 [(0x1FFE, 0x0001), (0x1FFF, 0x0010), (0x2000, 0x0102)] []) = true := by
  decide

/-- `TMC $R6 (user)`; `TMC (kernel)`. -/
theorem test_tmcReg :
    (endsIn (start [0x8806] [(.r6, 0x2000)] 0x0010 [] [] [])
      [(.r6, 0x1FFD), (.r7, 0x0004)] 0x0000 [(0x1FFE, 0x0001), (0x1FFF, 0x0010), (0x2000, 0x0101)] []
      && endsIn (start [0x8800] [(.r6, 0x1FFE)] 0x0000 [(0x1FFF, 0x0115), (0x2000, 0x0102)] [] [])
      [(.r6, 0x2000), (.r7, 0x0102)] 0x0115 [] []) = true := by
  decide

/-- `TMC 0x0021 (user)`; `TMC 0x0021 (kernel)`. -/
theorem test_tmcImm :
    (endsIn (start [0x8A00, 0x0021] [(.r6, 0x2000)] 0x0115 [] [] [])
      [(.r6, 0x1FFD), (.r7, 0x0004)] 0x0105 [(0x1FFE, 0x0021), (0x1FFF, 0x0115), (0x2000, 0x0102)] []
      && endsIn (start [0x8A00, 0x0021] [(.r6, 0x1FFE)] 0x0008 [(0x1FFF, 0x00C0), (0x2000, 0x0400)] [0] [])
      [(.r6, 0x2000), (.r7, 0x0400)] 0x0000 [] []) = true := by
  decide

/-- `CMP $R1, $R2`; `CMP $R1, $R2`. -/
theorem test_cmpReg :
    (endsIn (start [0x8C0A] [(.r1, 0x0000), (.r2, 0x8000)] 0x0000 [] [] [])
      [(.r7, 0x0101)] 0x0004 [] []
      && endsIn (start [0x8C0A] [(.r1, 0x0005), (.r2, 0x0000)] 0x0000 [] [] [])
      [(.r7, 0x0101)] 0x0001 [] []) = true := by
  decide

/-- `CMP $R1, 0x0001`; `CMP $R6, 0x0000 (user)`. -/
theorem test_cmpImm :
    (endsIn (start [0x8E08, 0x0001] [(.r1, 0x8000)] 0x0000 [] [] [])
      [(.r7, 0x0102)] 0x0001 [] []
      && endsIn (start [0x8E30, 0x0000] [(.r6, 0x2000)] 0x0010 [] [] [])
      [(.r6, 0x1FFD), (.r7, 0x0004)] 0x0000 [(0x1FFE, 0x0001), (0x1FFF, 0x0010), (0x2000, 0x0102)] []) = true := by
  decide

/-- `TST $R1, $R2`; `TST $R1, $R2`. -/
theorem test_tstReg :
    (endsIn (start [0x900A] [(.r1, 0x00F0), (.r2, 0x000F)] 0x0001 [] [] [])
      [(.r7, 0x0101)] 0x0003 [] []
      && endsIn (start [0x900A] [(.r1, 0x8001), (.r2, 0x8000)] 0x0002 [] [] [])
      [(.r7, 0x0101)] 0x0004 [] []) = true := by
  decide

/-- `TST $R1, 0x0008`. -/
theorem test_tstImm :
    (endsIn (start [0x9208, 0x0008] [(.r1, 0x0008)] 0x0006 [] [] [])
      [(.r7, 0x0102)] 0x0000 [] []) = true := by
  decide

/-- `MOV ($R1), $R2`; `MOV ($R1), $R2 (user)`. -/
theorem test_outIndReg :
    (endsIn (start [0x940A] [(.r1, 0x0010), (.r2, 0x0041)] 0x0000 [] [] [])
      [(.r7, 0x0101)] 0x0000 [] [.write 0x0010 0x0041]
      && endsIn (start [0x940A] [(.r1, 0x0010), (.r2, 0x0041), (.r6, 0x2000)] 0x0011 [] [] [])
      [(.r6, 0x1FFD), (.r7, 0x0004)] 0x0001 [(0x1FFE, 0x0001), (0x1FFF, 0x0011), (0x2000, 0x0101)] []) = true := by
  decide

/-- `MOV ($R1), 0x0041`. -/
theorem test_outIndImm :
    (endsIn (start [0x9608, 0x0041] [(.r1, 0x0010)] 0x0000 [] [] [])
      [(.r7, 0x0102)] 0x0000 [] [.write 0x0010 0x0041]) = true := by
  decide

/-- `MOV $R1, ($R2)`. -/
theorem test_inRegInd :
    (endsIn (start [0x980A] [(.r1, 0x0000), (.r2, 0x0010)] 0x0007 [] [] [0x55])
      [(.r1, 0x0055), (.r7, 0x0101)] 0x0007 [] [.read 0x0010 0x0055]) = true := by
  decide

/-- `MOV $R1, (0x0010)`; `MOV $R1, (0x0010) (user)`. -/
theorem test_inRegAbs :
    (endsIn (start [0x9A08, 0x0010] [(.r1, 0x0000)] 0x0000 [] [] [0x55])
      [(.r1, 0x0055), (.r7, 0x0102)] 0x0000 [] [.read 0x0010 0x0055]
      && endsIn (start [0x9A08, 0x0010] [(.r1, 0x0000), (.r6, 0x2000)] 0x0010 [] [] [0x55])
      [(.r6, 0x1FFD), (.r7, 0x0004)] 0x0000 [(0x1FFE, 0x0001), (0x1FFF, 0x0010), (0x2000, 0x0102)] []) = true := by
  decide

/-- `(op 0x27, I=0)`; `(op 0x27) (irq 0 pending, enabled, user)`. -/
theorem test_illegal27Word :
    (endsIn (start [0x9C00] [(.r6, 0x2000)] 0x0008 [] [0] [])
      [(.r6, 0x1FFD), (.r7, 0x0004)] 0x0008 [(0x1FFE, 0x0000), (0x1FFF, 0x0008), (0x2000, 0x0101)] []
      && endsIn (start [0x9C00] [(.r6, 0x2000)] 0x0119 [] [1] [])
      [(.r6, 0x1FFD), (.r7, 0x0002)] 0x0101 [(0x1FFE, 0x0000), (0x1FFF, 0x0119), (0x2000, 0x0100)] []) = true := by
  decide

/-- `NX.(op 0x3F, I=1)`; `(op 0x3F, I=1)`. -/
theorem test_illegal3FImm :
    (endsIn (start [0xFF00, 0xBEEF] [] 0x0000 [] [] [])
      [(.r7, 0x0102)] 0x0000 [] []
      && endsIn (start [0xFE00, 0x1234] [(.r6, 0x2000)] 0x0118 [] [0] [])
      [(.r6, 0x1FFD), (.r7, 0x0004)] 0x0108 [(0x1FFE, 0x0000), (0x1FFF, 0x0118), (0x2000, 0x0102)] []) = true := by
  decide

/-- An interrupt is taken when enabled, not when I = 0, not when masked; and before an illegal word is fetched. -/
theorem test_interrupts :
    (endsIn (start [0x000A] [(.r1, 0x0000), (.r2, 0x0007), (.r6, 0x2000)] 0x0808 [] [8] [])
      [(.r6, 0x1FFD), (.r7, 0x0002)] 0x0800 [(0x1FFE, 0x0003), (0x1FFF, 0x0808), (0x2000, 0x0100)] []
      && endsIn (start [0x000A] [(.r1, 0x0000), (.r2, 0x0007), (.r6, 0x2000)] 0x0800 [] [] [])
      [(.r1, 0x0007), (.r7, 0x0101)] 0x0800 [] []
      && endsIn (start [0x000A] [(.r1, 0x0000), (.r2, 0x0007), (.r6, 0x2000)] 0xF708 [] [8] [])
      [(.r1, 0x0007), (.r7, 0x0101)] 0xF708 [] []
      && endsIn (start [0x9C00] [(.r6, 0x2000)] 0x0119 [] [1] [])
      [(.r6, 0x1FFD), (.r7, 0x0002)] 0x0101 [(0x1FFE, 0x0000), (0x1FFF, 0x0119), (0x2000, 0x0100)] []) = true := by
  decide

/-- The checks of user mode: an unused field 6 is no access, a skipped instruction does not trap. -/
theorem test_user_mode_checks :
    (endsIn (start [0x200E] [(.r1, 0xFFFF), (.r6, 0x2000)] 0x0010 [] [] [])
      [(.r1, 0x0000), (.r7, 0x0101)] 0x0010 [] []
      && endsIn (start [0x01B0] [(.r0, 0x0005), (.r6, 0x2000)] 0x0010 [] [] [])
      [(.r7, 0x0101)] 0x0010 [] []
      && endsIn (start [0x948A] [(.r1, 0x0010), (.r2, 0x0041)] 0x0012 [] [] [])
      [(.r7, 0x0101)] 0x0012 [] []) = true := by
  decide

/-! ## The assembler: the expansions of spec/95_test_vectors.md 1.4, and labels -/

/-- The words of one line at an address. -/
def assembled (base : Word) (userSp : Bool) (mn : Asm.Mnemonic) (ops : List Asm.SrcOperand) : List Word :=
  match Asm.assemble base userSp [.instr .always mn ops] with
  | .ok p => p.words.map fun w => match w.2.2 with | .word v => v | .atLinkTime _ => 0xDEAD
  | .error _ => []

open Asm in
theorem test_asm_calls_and_jumps :
    ([assembled 0 false .nop [], assembled 0 false .sex [.reg (.gp .r1)], assembled 0 false .sex [.imm (.num 0x0300)],
      assembled 0 true .sex [.imm (.num 0x0300)], assembled 0 false .ret [.reg (.gp .r1)], assembled 0 false .ret [],
      assembled 0 true .ret [], assembled 0 false .jmp [.reg (.gp .r1)], assembled 0 false .jmp [.ind (.gp .r1)],
      assembled 0 false .jmp [.imm (.num 0x0300)], assembled 0 false .jmp [.abs (.num 0x0300)],
      assembled 0 false .jmp [.disp (.gp .r1) (.num 2)], assembled 0 false .hop [.reg (.gp .r1)],
      assembled 0 false .hop [.imm (.num 0x0010)], assembled 0x0105 false .hop [.label (.num 0x0103)]]
      : List (List Word))
      = [[0x0000], [0x8431], [0x8630, 0x0300], [0x8628, 0x0300], [0x3839], [0x383E], [0x383D], [0x0039], [0x0439],
         [0x0238, 0x0300], [0x0638, 0x0300], [0x1A39, 0x0002], [0x4839], [0x4A38, 0x0010], [0x4A38, 0xFFFC]] := by
  decide

open Asm in
theorem test_asm_arithmetic :
    ([assembled 0 false .sub [.reg (.gp .r1), .imm (.num 5)], assembled 0 false .sbc [.reg (.gp .r1), .imm (.num 1)],
      assembled 0 false .inc [.reg (.gp .r1)], assembled 0 false .dec [.reg (.gp .r1)],
      assembled 0 false .shl [.reg (.gp .r1)], assembled 0 false .rol [.reg (.gp .r1)],
      assembled 0 false .shr [.reg (.gp .r1)], assembled 0 false .ror [.reg (.gp .r1)],
      assembled 0 false .not [.reg (.gp .r1)], assembled 0 false .neg [.reg (.gp .r1)],
      assembled 0 false .set [.reg (.gp .r1), .imm (.num 15)], assembled 0 false .clr [.reg (.gp .r1), .imm (.num 0)],
      assembled 0 false .bit [.reg (.gp .r1), .imm (.num 3)]] : List (List Word))
      = [[0x4208, 0xFFFB], [0x4608, 0xFFFE], [0x5409], [0x5809], [0x5C09], [0x6009], [0x6409], [0x6809], [0x6C09],
         [0x7009], [0x7A08, 0x8000], [0x7608, 0xFFFE], [0x9208, 0x0008]] := by
  decide

open Asm in
theorem test_asm_stack_and_flags :
    ([assembled 0 false .psh [.reg (.gp .r1), .reg (.gp .r2)], assembled 0 false .psh [.reg (.gp .r1), .imm (.num 0x42)],
      assembled 0 false .psh [.reg (.gp .r1), .sw], assembled 0 false .psh [.reg (.gp .r2)],
      assembled 0 true .psh [.reg (.gp .r2)], assembled 0 false .psh [.imm (.num 0x42)], assembled 0 false .psh [.sw],
      assembled 0 true .psh [.sw], assembled 0 false .pop [.reg (.gp .r1), .reg (.gp .r2)],
      assembled 0 false .pop [.sw, .reg (.gp .r2)], assembled 0 false .pop [.reg (.gp .r1)],
      assembled 0 true .pop [.reg (.gp .r1)], assembled 0 false .pop [.sw], assembled 0 true .pop [.sw],
      assembled 0 false .nay [.flag .c], assembled 0 false .nay [.flag .i], assembled 0 false .yay [.flag .s],
      assembled 0 false .yay [.flag .i]] : List (List Word))
      = [[0x300A], [0x3208, 0x0042], [0x3408], [0x3032], [0x302A], [0x3230, 0x0042], [0x3430], [0x3428], [0x380A],
         [0x3C02], [0x380E], [0x380D], [0x3C06], [0x3C05], [0x8000], [0x8018], [0x8030], [0x8038]] := by
  decide

open Asm in
/-- Shapes that have no row select nothing (spec/47_assembler.md R242). -/
theorem test_asm_no_such_form : assembled 0 false .add [.reg (.gp .r1), .ind (.gp .r2)] = [] := by decide

open Asm in
/-- Expressions (spec/47_assembler.md R260 to R263): right recursion, the levels of the grammar, the number bases. -/
theorem test_asm_expressions :
    parse [.num 8, .minus, .num 4, .minus, .num 2] = some (.bin .sub (.num 8) (.bin .sub (.num 4) (.num 2)))
      ∧ parse [.num 1, .shl, .num 4, .bar, .num 2] = some (.bin .bor (.bin .shl (.num 1) (.num 4)) (.num 2))
      ∧ numberValue ['0', 'x', '1', 'F'] = some 31 ∧ numberValue ['0', '1', '7'] = some 15
      ∧ numberValue ['0', 'b', '1', '0', '1'] = some 5 ∧ numberValue ['1', '9'] = some 19
      ∧ numberValue ['0', '8'] = none := by
  decide

open Asm in
/-- Spellings (spec/47_assembler.md R241, R243): `NZ.MOV $R7, [++$R6]`, `MOV $R1, [$R2+0x0003]`, `YAY I`, `HOP top`. -/
theorem test_asm_spellings :
    parseInstr (some ['N', 'Z']) ['M', 'O', 'V'] [[['$', 'R', '7']], [['['], ['+', '+'], ['$', 'R', '6'], [']']]]
        = some (.instr .nz .mov [.reg (.gp .r7), .preInc (.gp .r6)])
      ∧ parseInstr none ['M', 'O', 'V'] [[['$', 'R', '1']], [['['], ['$', 'R', '2'], ['+'], ['3'], [']']]]
        = some (.instr .always .mov [.reg (.gp .r1), .disp (.gp .r2) (.num 3)])
      ∧ parseInstr none ['Y', 'A', 'Y'] [[['I']]] = some (.instr .always .yay [.flag .i])
      ∧ parseInstr none ['H', 'O', 'P'] [[['t', 'o', 'p']]]
        = some (.instr .always .hop [.label (.name ['t', 'o', 'p'])])
      ∧ registerNamed ['$', 'R', '7'] = some (.gp .r7) ∧ registerNamed ['$', 'R', '8'] = none
      ∧ parseDirective ['d', 'm', 'w'] [['-'], ['1']] = some (.dmw (.un .neg (.num 1)))
      ∧ parseDirective ['e', 'q', 'u'] [['1', '2'], ['5']] = none ∧ parseLabel ['1', 'a'] = none
      ∧ parseDirective ['e', 'q', 'u'] [['k', '2'], ['$', '$'], ['+'], ['0', 'x', '1', 'F']]
        = some (.equ ['k', '2'] (.bin .add .next (.num 31))) := by
  decide

open Asm in
/-- A label before and after its use, a scope, `.equ`, `.def`, `.dmw` (spec/47_assembler.md R245 to R250): `NZ.HOP` back
to 0x0103 from 0x0105, as in spec/95_test_vectors.md 1.4. -/
theorem test_asm_program :
    (match assemble 0 false [.org (.num 0x0103), .labelDef ['t'], .instr .always .dec [.reg (.gp .r1)],
        .instr .always .nop [], .instr .nz .hop [.label (.name ['t'])], .psh, .equ ['k'] (.num 5),
        .dmw (.un .neg (.name ['k'])), .pop, .instr .always .jmp [.imm (.name ['e'])], .labelDef ['e']] with
      | .ok p => p.words.map fun w => (w.1, w.2.2)
      | .error _ => [])
      = [(0x0103, .word 0x5809), (0x0104, .word 0x0000), (0x0105, .word 0x4AB8), (0x0106, .word 0xFFFC),
         (0x0107, .word 0xFFFB), (0x0108, .word 0x0238), (0x0109, .word 0x010A)] := by
  decide

/-- What a source assembles to: the words with their addresses, and the exports. -/
def layout (ls : List Asm.Line) : Option (List (Word × Asm.Emitted) × List (Asm.Name × Word)) :=
  match Asm.assemble 0 false ls with
  | .ok p => some (p.words.map fun w => (w.1, w.2.2), p.exports)
  | .error _ => none

open Asm in
/-- A use of an `.equ` name above its line (spec/47_assembler.md R246). -/
theorem test_asm_equ_below :
    layout [.org (.num 0x100), .labelDef ['s'], .dmw (.name ['x']), .org (.bin .add (.name ['s']) (.num 16)),
        .labelDef ['l'], .dmw (.name ['s']), .equ ['x'] (.name ['l'])]
      = some ([(0x100, .word 0x110), (0x110, .word 0x100)], []) := by
  decide

open Asm in
/-- Each `.org` counts from the label above it (R245); a label with an `.org` between it and the next word (R250). -/
theorem test_asm_org :
    layout [.labelDef ['a'], .dmw (.num 0), .org (.bin .add (.name ['a']) (.num 16)), .labelDef ['b'], .dmw (.num 0),
        .org (.bin .add (.name ['b']) (.num 16)), .labelDef ['c'], .dmw (.name ['c'])]
      = some ([(0, .word 0), (16, .word 0), (32, .word 32)], [])
    ∧ layout [.labelDef ['a'], .org (.num 0x20), .dmw (.name ['a'])] = some ([(0x20, .word 0x20)], []) := by
  decide

open Asm in
/-- An imported name is left to the linker, and hides no undefined one, in either order (spec/47_assembler.md R247). -/
theorem test_asm_imports :
    layout [.imp ['f'], .dmw (.name ['f'])] = some ([(0, .atLinkTime (.name ['f']))], [])
    ∧ layout [.imp ['f'], .dmw (.bin .add (.name ['f']) (.name ['g']))] = none
    ∧ layout [.imp ['f'], .dmw (.bin .add (.name ['g']) (.name ['f']))] = none
    ∧ layout [.imp ['f'], .instr .always .jmp [.imm (.bin .add (.name ['f']) (.name ['g']))]] = none := by
  decide

open Asm in
/-- `.exp` exports the label where it stands; SFL's index is not reduced; a defined name is a NAMESTRING
(spec/47_assembler.md R241, R247, R261). -/
theorem test_asm_exports_and_names :
    layout [.labelDef ['f'], .dmw (.num 0), .psh, .labelDef ['f'], .dmw (.num 0), .exp ['f'], .pop]
      = some ([(0, .word 0), (1, .word 0)], [(['f'], 1)])
    ∧ layout [.equ ['k'] (.num 1), .exp ['k']] = none
    ∧ layout [.instr .always .sfl [.imm (.num 65536)]] = none
    ∧ layout [.instr .always .sfl [.imm (.num 7)]] = some ([(0, .word 0x8038)], [])
    ∧ layout [.equ ['1'] (.num 5)] = none := by
  decide

/-! ## Witnesses: states and operands that meet the hypotheses of each statement -/

/-- Kernel mode. -/
def kernelState : State := State.reset

/-- User mode. -/
def userState : State := State.reset.setSw 0x0010

/-- Both clauses of `formRule` have something to speak of: `free` executes in kernel mode and, naming no R6, in user mode;
`naming` names R6 and traps in user mode. -/
def formWitness (free naming : Instr) (usedFree usedNaming : List Reg) : Bool :=
  condPass free.mode kernelState.sw && !kernelState.user && condPass free.mode userState.sw && userState.user
    && !usedFree.contains .r6 && condPass naming.mode userState.sw && usedNaming.contains .r6


theorem witness_RegisterAndImmediateMoves :
    formWitness (.movRegReg .always .r0 .r7) (.movRegImm .nc .r6 .r0 0) [.r0, .r7] [.r6] = true := by decide

theorem witness_RegisterLoads :
    formWitness (.movRegDisp .always .r7 .r0 0xFFFF) (.movRegInd .always .r0 .r6) [.r7, .r0] [.r0, .r6] = true := by decide

theorem witness_MemoryStores :
    formWitness (.movDispReg .always .r0 .r7 0xFFFF) (.movAbsReg .always .r0 .r6 0) [.r0, .r7] [.r6] = true := by decide

theorem witness_MemoryToMemoryMoves :
    formWitness (.movIndInd .always .r1 .r1) (.movIndAbs .always .r6 .r0 0) [.r1, .r1] [.r6] = true := by decide

theorem witness_PostIncrementMoves :
    formWitness (.movRegPostInc .always .r1 .r1) (.movPostIncReg .always .r6 .r0) [.r1, .r1] [.r6, .r0] = true := by decide

theorem witness_ByteMoves :
    formWitness (.mkw .always .r0 .r7) (.nul .always .r6 .r0) [.r0, .r7] [.r6] = true := by decide

theorem witness_StatusWordReads :
    formWitness (.movAbsSw .always .r6 .r6 0) (.movRegSw .always .r6 .r0) [] [.r6] = true := by decide

theorem witness_StatusWordWrites :
    formWitness (.movSwImm .always .r6 .r6 0xFFFF) (.movSwPreInc .always .r0 .r6) [] [.r6] = true := by decide

theorem witness_PostDecrementStores :
    formWitness (.movPostDecReg .always .r7 .r7) (.movPostDecImm .always .r6 .r0 0) [.r7, .r7] [.r6] = true := by decide

theorem witness_PreIncrementLoad :
    formWitness (.movRegPreInc .always .r1 .r1) (.movRegPreInc .always .r7 .r6) [.r1, .r1] [.r7, .r6] = true := by decide

theorem witness_Additions :
    formWitness (.adcReg .always .r0 .r7) (.assImm .always .r6 .r0 1) [.r0, .r7] [.r6] = true := by decide

theorem witness_Subtractions :
    formWitness (.sbcReg .always .r1 .r1) (.subReg .always .r0 .r6) [.r1, .r1] [.r0, .r6] = true := by decide

theorem witness_IncrementAndDecrement :
    formWitness (.incReg .always .r7 .r0) (.decReg .always .r6 .r6) [.r7, .r0] [.r6, .r6] = true := by decide

theorem witness_OneBitShifts :
    formWitness (.shlReg .always .r0 .r7) (.shrReg .always .r6 .r0) [.r0, .r7] [.r6, .r0] = true := by decide

theorem witness_RotatesThroughCarry :
    formWitness (.rolReg .always .r1 .r1) (.rorReg .always .r0 .r6) [.r1, .r1] [.r0, .r6] = true := by decide

theorem witness_ComplementAndNegate :
    formWitness (.notReg .always .r0 .r7) (.negReg .always .r6 .r0) [.r0, .r7] [.r6, .r0] = true := by decide

theorem witness_BitwiseLogic :
    formWitness (.xorReg .always .r1 .r1) (.anlImm .always .r6 .r0 0) [.r1, .r1] [.r6] = true := by decide

theorem witness_SubroutineCalls :
    formWitness (.sexReg .always .r7 .r7) (.sexImm .always .r6 .r0 0) [.r7, .r7] [.r6] = true := by decide

theorem witness_CompareAndTest :
    formWitness (.cmpReg .always .r7 .r0) (.tstImm .always .r6 .r0 0) [.r7, .r0] [.r6] = true := by decide

/-- SFL uses no register field: index 6 is no access to R6. -/
theorem witness_SetOrClearFlag :
    condPass (Instr.mode (.sfl .always .setS .r6)) userState.sw = true ∧ userState.user = true
      ∧ kernelState.user = false := by decide

theorem witness_IoWrites_and_IoReads :
    condPass (Instr.mode (.outAbsReg .always .r0 .r6 0)) kernelState.sw = true ∧ kernelState.user = false
      ∧ condPass (Instr.mode (.inRegAbs .always .r7 .r0 0xFFFF)) userState.sw = true ∧ userState.user = true
      ∧ kernelState.ioScript = []
      ∧ (start [] [] 0 [] [] [0x0055]).ioScript = 0x0055 :: [] := by decide

theorem witness_StepRunsTheDecodedInstruction :
    sampleInterrupt (start [0x000A] [] 0x0008 [] [0x00] []) = (none, start [0x000A] [] 0x0008 [] [] [])
      ∧ decode (bytesOfWord ((start [0x000A] [] 0x0008 [] [0x00] []).load 0x0100)
          ++ bytesOfWord ((start [0x000A] [] 0x0008 [] [0x00] []).load 0x0101))
        = .ok (.movRegReg .always .r1 .r2, [0x00, 0x00]) := by decide

theorem witness_StepRunsThePlacedWord :
    decodeTableWord 32 0xFFFFFFFF = some (.illegal3FImm .s .r7 .r7 0xFFFF) := by decide

theorem witness_EveryStepKeepsTheInvariant :
    State.reset.mem.wf = true ∧ State.reset.sw.getLsbD 6 = false ∧ State.reset.sw.getLsbD 7 = false
      ∧ (match step State.reset with | .next _ => true | _ => false) = true := by decide

theorem witness_ConditionModeTable :
    condPass (Instr.mode (.nul .nc .r0 .r0)) kernelState.sw = true
      ∧ condPass (Instr.mode (.nul .never .r0 .r0)) kernelState.sw = false
      ∧ isUnused (.nul .never .r0 .r0) = false ∧ privileged (.nul .never .r0 .r0) = false := by decide

theorem witness_SkippedInstructionChangesNothing :
    condPass (Instr.mode (.illegal3FImm .never .r0 .r0 0xBEEF)) kernelState.sw = false
      ∧ condPass (Instr.mode (.outIndReg .c .r6 .r6)) userState.sw = false := by decide

theorem witness_UnusedFieldsAreIgnored :
    (fieldsOf (.nul .always .r1 .r0)).op = (fieldsOf (.nul .always .r1 .r6)).op
      ∧ (fieldsOf (.nul .always .r1 .r0)).hasImm = (fieldsOf (.nul .always .r1 .r6)).hasImm
      ∧ (fieldsOf (.nul .always .r1 .r0)).mode = (fieldsOf (.nul .always .r1 .r6)).mode
      ∧ (fieldsOf (.nul .always .r1 .r0)).imm = (fieldsOf (.nul .always .r1 .r6)).imm
      ∧ (fieldsOf (.nul .always .r1 .r0)).dst = (fieldsOf (.nul .always .r1 .r6)).dst
      ∧ (fieldUse (.nul .always .r1 .r0)).2 = .unused := by decide

/-- The first and the last pair of each list of R95. -/
theorem witness_UnusedPairsTakeTrapZero :
    ([.illegal0EImm .always .r0 .r0 0, .illegal20Imm .always .r7 .r6 0, .illegal27Word .always .r0 .r0,
      .illegal3FImm .always .r0 .r0 0] : List Instr).all (fun i => isUnused i && condPass i.mode kernelState.sw)
      = true := by decide

theorem witness_PrivilegedInstructionTakesTrapOneInUserMode :
    ([.outAbsReg .always .r0 .r0 0, .movRegReg .always .r6 .r0, .tmcReg .always .r0 .r6] : List Instr).all
      (fun i => privileged i && condPass i.mode userState.sw) = true ∧ userState.user = true := by decide

theorem witness_UserModeIsConfined :
    (start [0x000A] [] 0x0010 [] [] []).user = true
      ∧ (match step (start [0x000A] [] 0x0010 [] [] []) with | .next t => t.user | _ => false) = true
      ∧ (match step (start [0x8A00, 0x0021] [] 0x0010 [] [] []) with | .next t => !t.user | _ => false) = true := by
  decide

theorem witness_UserModeIsEnteredOnlyByStatusWrites :
    kernelState.user = false
      ∧ (match exec (.movSwImm .always .r0 .r0 0x0010) kernelState with | .next t => t.user | _ => false) = true := by
  decide

theorem witness_OnlyTheListedInstructionsWriteFlags :
    writesC (.nul .always .r0 .r0) = false ∧ writesZ (.nul .always .r0 .r0) = false
      ∧ writesS (.nul .always .r0 .r0) = false ∧ writesStatusWord (.nul .always .r0 .r0) = false
      ∧ (match exec (.nul .always .r0 .r0) kernelState with | .next _ => true | _ => false) = true := by decide

theorem witness_OnlyIoFormsReachTheIoBus :
    isIo (.nul .always .r0 .r0) = false ∧ isIo (.outIndReg .always .r0 .r0) = true
      ∧ condPass (Instr.mode (.outIndReg .always .r0 .r0)) kernelState.sw = true ∧ kernelState.user = false
      ∧ (match exec (.outIndReg .always .r0 .r0) kernelState with | .next _ => true | _ => false) = true
      ∧ (match exec (.nul .always .r0 .r0) kernelState with | .next _ => true | _ => false) = true := by decide

/-- Signals 0 and 7, the first and the last, asserted and enabled; and one of them alone. -/
theorem witness_EnabledInterruptIsTaken :
    flagI (start [] [] 0x8108 [] [0x81, 0x00] []).sw = true
      ∧ 0x81 = (start [] [] 0x8108 [] [0x81, 0x00] []).irqScript.headD (Config.irqLevels 0)
      ∧ (0x81 : BitVec 8) &&& irqMask (start [] [] 0x8108 [] [0x81, 0x00] []).sw ≠ 0
      ∧ (0x80 : BitVec 8) &&& irqMask (start [] [] 0x8108 [] [0x80] []).sw = BitVec.ofNat 8 (2 ^ 7)
      ∧ 0x80 = (start [] [] 0x8108 [] [0x80] []).irqScript.headD (Config.irqLevels 0) :=
  ⟨rfl, rfl, by decide, by decide, rfl⟩

/-- I = 0; I = 1 with every asserted signal masked; and I = 1 with the script at its end and every signal masked. -/
theorem witness_DisabledOrMaskedInterruptIsNotTaken :
    flagI State.reset.sw = false
      ∧ flagI (start [] [] 0x8108 [] [0x7E] []).sw = true
      ∧ (start [] [] 0x8108 [] [0x7E] []).irqScript.headD (Config.irqLevels 0)
          &&& irqMask (start [] [] 0x8108 [] [0x7E] []).sw = 0
      ∧ flagI (State.reset.setSw 0x0008).sw = true ∧ (State.reset.setSw 0x0008).irqScript = []
      ∧ (State.reset.setSw 0x0008).irqScript.headD (Config.irqLevels (State.reset.setSw 0x0008).draws)
          &&& irqMask (State.reset.setSw 0x0008).sw = 0 :=
  ⟨by decide, rfl, by decide, by decide, rfl, BitVec.and_zero⟩

theorem witness_SystemCallEntersTheTrapHandler :
    condPass .always userState.sw = true ∧ userState.user = true ∧ Reg.r0 ≠ Reg.r6 := by decide

theorem witness_KernelTransferReturns :
    condPass .always kernelState.sw = true ∧ kernelState.user = false := by decide

/-- The handler's state is the one entry leaves. -/
theorem witness_EntryThenReturnRestores :
    userState.sw.getLsbD 6 = false ∧ userState.sw.getLsbD 7 = false ∧ Reg.r0 ≠ Reg.r6 ∧ Reg.r0 ≠ Reg.r7
      ∧ (userState.enter 0x0004 9 false).user = false
      ∧ (userState.enter 0x0002 0 true).user = false := by decide

/-- The callee's state is the one the call leaves. -/
theorem witness_CallThenReturnComesBack :
    Reg.r5 ≠ Reg.r7 ∧ userState.user = true ∧ privileged (.sexReg .always .r5 .r7) = false
      ∧ privileged (.sexImm .always .r5 .r6 0) = false ∧ kernelState.user = false
      ∧ (match exec (.sexImm .always .r5 .r6 0) userState with
          | .next t => t.user == userState.user && t.load (userState.reg .r5) == userState.reg .r7
          | _ => false) = true := by decide

theorem witness_StackDiscipline :
    condPass .always userState.sw = true ∧ userState.user = true ∧ Reg.r6 ∉ [Reg.r5, Reg.r7, Reg.r0]
      ∧ Reg.r0 ≠ Reg.r5 ∧ Reg.r5 ≠ Reg.r7 ∧ kernelState.user = false := by decide

theorem witness_DoubleWordAddition_and_Subtraction :
    Reg.r0 ≠ Reg.r7 ∧ Reg.r1 ≠ Reg.r7 ∧ Reg.r0 ≠ Reg.r1 ∧ Reg.r2 ≠ Reg.r7 ∧ Reg.r3 ≠ Reg.r7 ∧ Reg.r3 ≠ Reg.r0
      ∧ userState.user = true ∧ Reg.r6 ∉ [Reg.r0, Reg.r1, Reg.r2, Reg.r3] := by decide

theorem witness_FlagIndexTable :
    condPass .always kernelState.sw = true ∧ kernelState.user = false := by decide

/-- An empty memory, and one with the first and the last octet listed. -/
theorem witness_EqualReadsMeanEqualMemories :
    (Memory.mk []).wf = true ∧ (Memory.mk [(0, 0x12), (131071, 0x34)]).wf = true
      ∧ (Memory.mk [(0, 0x00)]).wf = false ∧ (Memory.mk [(131072, 0x01)]).wf = false := by decide

theorem witness_StoreIsSeenByTheNextFetch :
    condPass .always userState.sw = true ∧ userState.user = true ∧ userState.reg .r7 = userState.reg .r7
      ∧ userState.reg .r0 = userState.reg .r7 ∧ Reg.r0 ≠ Reg.r6 := by decide

/-- At 0x0100, and at 0xFFFF with the immediate at 0x0000. -/
theorem witness_JumpToSelfNeverLeaves :
    (start [0x4A38, 0xFFFE] [] 0 [] [] []).load 0x0100 = 0x4A38
      ∧ (start [0x4A38, 0xFFFE] [] 0 [] [] []).load 0x0101 = 0xFFFE
      ∧ ((State.reset.setPc 0xFFFF).loadImage 0xFFFF [0x4A38, 0xFFFE]).load 0xFFFF = 0x4A38
      ∧ ((State.reset.setPc 0xFFFF).loadImage 0xFFFF [0x4A38, 0xFFFE]).load 0x0000 = 0xFFFE
      ∧ flagI State.reset.sw = false := by decide

theorem witness_SelectedFormsAreWellFormed :
    Asm.selectForm .nz .sfl [.imm 7] = some (.sfl .nz .setI .r0)
      ∧ Asm.selectForm .never .tmc [] = some (.tmcReg .never .r0 .r0) := by decide

theorem witness_EveryFormCanBeAssembled :
    wellFormed (.movSwPreInc .always .r0 .r7) = true ∧ isUnused (.movSwPreInc .always .r0 .r7) = false := by decide

/-- A label at the lowest address and one at the highest, found by name among the labels of an open scope. -/
theorem witness_HopReachesItsLabel :
    condPass .always userState.sw = true ∧ condPass .nc kernelState.sw = true
      ∧ Asm.lookupName ⟨[⟨0, ['a'], 0x0000⟩, ⟨0, ['z'], 0xFFFF⟩], []⟩ ⟨[], []⟩ [0] ['a']
        = some (.value (0x0000 : Word).toNat)
      ∧ Asm.lookupName ⟨[⟨0, ['a'], 0x0000⟩, ⟨0, ['z'], 0xFFFF⟩], []⟩ ⟨[], []⟩ [0] ['z']
        = some (.value (0xFFFF : Word).toNat) := by decide

end Sys2Proof.Tests
end

section
/-! The stack discipline of spec/20_memory.md R59: the push form and the pop form as `push` and `pop` behind the checks,
and what a pop finds after a push when only R7 moved between them. -/

namespace Sys2Proof.Machine

/-! ## The checks, as the statements put them -/

theorem namesR6_eq_false {rs : List Reg} (h : Reg.r6 ∉ rs) : namesR6 rs = false :=
  Bool.eq_false_iff.mpr fun h6 => h ((namesR6_iff rs).mp h6)

/-- A form whose condition passes and that names no R6 in user mode has its effect. -/
theorem guarded_namesR6_effect {m : CondMode} {rs : List Reg} {s : State} (hc : condPass m s.sw = true)
    (hu : s.user = true → Reg.r6 ∉ rs) (e : State) : guarded m (namesR6 rs) s e = .next e :=
  guarded_effect hc (fun h => namesR6_eq_false (hu h)) e

/-! ## The register push and pop -/

/-- `MOV [d--], r` is a push of `r` (R145). -/
theorem exec_movPostDecReg_push {m : CondMode} {d r : Reg} {s : State} (hc : condPass m s.sw = true)
    (hu : s.user = true → Reg.r6 ∉ [d, r]) : exec (.movPostDecReg m d r) s = .next (s.push d (s.reg r)) :=
  guarded_namesR6_effect hc hu _

/-- `MOV x, [++r]` is a pop, the word going to `x` last (R148). -/
theorem exec_movRegPreInc_pop {m : CondMode} {x r : Reg} {s : State} (hc : condPass m s.sw = true)
    (hu : s.user = true → Reg.r6 ∉ [x, r]) :
    exec (.movRegPreInc m x r) s = .next ((s.pop r).2.setReg x (s.pop r).1) :=
  guarded_namesR6_effect hc hu _

/-- What the pop form leaves in a destination other than the pointer, and in the pointer. -/
theorem pop_setReg_regs (s : State) {x r : Reg} (hxr : x ≠ r) :
    ((s.pop r).2.setReg x (s.pop r).1).reg x = s.load (s.reg r + 1)
      ∧ ((s.pop r).2.setReg x (s.pop r).1).reg r = s.reg r + 1 := by
  simp [hxr.symm]

/-! ## A pop after a push -/

theorem sameButPc_sw {t u : State} (h : sameButPc t u) : u.sw = t.sw := by
  obtain ⟨_, hsw, _⟩ := h
  exact hsw

theorem sameButPc_load {t u : State} (h : sameButPc t u) (a : Word) : u.load a = t.load a := by
  obtain ⟨_, _, hmem⟩ := h
  simp only [State.load, hmem]

/-- After a push, with only R7 changed since, the incremented pointer is the old one and the word there is the pushed one. -/
theorem load_after_push {s u : State} {d : Reg} {v : Word} (h : sameButPc (s.push d v) u) (hd : d ≠ .r7) :
    u.reg d + 1 = s.reg d ∧ u.load (u.reg d + 1) = v := by
  have hptr : u.reg d + 1 = s.reg d := by
    obtain ⟨hregs, -, -⟩ := h
    rw [hregs d hd, State.push_reg_same, BitVec.sub_add_cancel]
  refine ⟨hptr, ?_⟩
  rw [hptr, sameButPc_load h, State.push_load, if_pos rfl]

/-- The push form, then the pop form through the same pointer: the word comes back and the pointer is restored. -/
theorem pop_after_push_restores {m : CondMode} {d x : Reg} {v : Word} {s u : State} (hc : condPass m s.sw = true)
    (hu : s.user = true → Reg.r6 ∉ [x, d]) (h : sameButPc (s.push d v) u) (hxd : x ≠ d) (hd : d ≠ .r7) :
    ∃ t, exec (.movRegPreInc m x d) u = .next t ∧ t.reg x = v ∧ t.reg d = s.reg d := by
  have hsw : u.sw = s.sw := (sameButPc_sw h).trans (s.push_sw d v)
  have huser : u.user = s.user := congrArg flagU hsw
  obtain ⟨hptr, hload⟩ := load_after_push h hd
  obtain ⟨hx, hr⟩ := pop_setReg_regs u hxd
  exact ⟨_, exec_movRegPreInc_pop (hsw ▸ hc) (huser ▸ hu), hx.trans hload, hr.trans hptr⟩

/-! ## The hardware's own sequences through R6 -/

/-- Entry is three pushes through R6: memory and R6 after them are memory and R6 after entry. -/
theorem State.enter_pushes (s : State) (vector number : Word) (clearI : Bool) :
    (s.enter vector number clearI).mem = (((s.push .r6 s.pc).push .r6 s.sw).push .r6 number).mem
      ∧ (s.enter vector number clearI).reg .r6 = (((s.push .r6 s.pc).push .r6 s.sw).push .r6 number).reg .r6 := by
  simp [State.enter]

/-- In kernel mode a write of SW stores every bit but the reserved two (R33). -/
theorem writeSw_of_kernel {s : State} (h : s.user = false) (v : Word) : writeSw s.sw v = v &&& 0xFF3F := by
  have hU : flagU s.sw = false := h
  simp [writeSw, hU]

/-- The return is two pops through R6: the first gives SW, the second R7 and the final R6 (R208). -/
theorem State.returnFromTrap_pops (s : State) :
    s.returnFromTrap.sw = writeSw s.sw (s.pop .r6).1
      ∧ s.returnFromTrap.pc = ((s.pop .r6).2.pop .r6).1
      ∧ s.returnFromTrap.reg .r6 = ((s.pop .r6).2.pop .r6).2.reg .r6 := by
  simp [State.returnFromTrap]

end Sys2Proof.Machine

open Sys2Proof Sys2Proof.Machine

/-- Settles O26: the two instructions are `push` and `pop` behind the checks, entry is three pushes and the return two
pops. -/
theorem stackDiscipline : Obligations.StackDiscipline := by
  refine ⟨?pushThenPop, ?pop, ?entry, ?trapReturn⟩
  case pushThenPop =>
    intro m d r x s hc hu
    have hpush : s.user = true → Reg.r6 ∉ [d, r] := fun h h6 =>
      hu h ((by simp : [d, r] ⊆ [d, r, x]) h6)
    have hpop : s.user = true → Reg.r6 ∉ [x, d] := fun h h6 =>
      hu h ((by simp : [x, d] ⊆ [d, r, x]) h6)
    exact ⟨_, exec_movPostDecReg_push hc hpush, by simp, State.push_reg_same .., fun u h hxd hd =>
      pop_after_push_restores hc hpop h hxd hd⟩
  case pop =>
    intro m x r s hc hu hxr
    obtain ⟨hx, hr⟩ := pop_setReg_regs s hxr
    exact ⟨_, exec_movRegPreInc_pop hc hu, hr, hx⟩
  case entry =>
    intro s vector number clearI
    obtain ⟨hmem, hr6⟩ := s.enter_pushes vector number clearI
    exact ⟨hmem, hr6, by simp [State.enter_reg]⟩
  case trapReturn =>
    intro s hkernel
    obtain ⟨hsw, hpc, hr6⟩ := s.returnFromTrap_pops
    exact ⟨hsw.trans (writeSw_of_kernel hkernel _), hpc, hr6⟩

end

section
/-! The encoding: the fields of what a word decodes to are the fields of the word (spec/30_encoding.md R81), and op and I
alone select the form. -/

namespace Sys2Proof

/-! ## The rows of the opcode map -/

/-- The row of the opcode map that decoding selects for an opcode. -/
def rowOf (op : BitVec 6) : OpcodeRow :=
  opcodeMap.getD op.toNat (oneWord .illegal3FWord, twoWord .illegal3FImm)

theorem instrOf_eq_row (f : Fields) :
    instrOf f = if f.hasImm then (rowOf f.op).2 f.mode f.dst f.src f.imm else (rowOf f.op).1 f.mode f.dst f.src := rfl

/-- A row keeps its opcode, its I bit and every field it is given. -/
def RowKeepsFields (op : BitVec 6) (row : OpcodeRow) : Prop :=
  (∀ m d r, fieldsOf (row.1 m d r) = ⟨op, false, m, d, r, 0⟩)
    ∧ ∀ m d r imm, fieldsOf (row.2 m d r imm) = ⟨op, true, m, d, r, imm⟩

/-- A row of two forms whose fields are two registers. -/
theorem registerRow_keepsFields {op : BitVec 6} {f : CondMode → Reg → Reg → Instr}
    {g : CondMode → Reg → Reg → Word → Instr} (hf : ∀ m d r, fieldsOf (f m d r) = ⟨op, false, m, d.bits, r.bits, 0⟩)
    (hg : ∀ m d r imm, fieldsOf (g m d r imm) = ⟨op, true, m, d.bits, r.bits, imm⟩) :
    RowKeepsFields op (oneWord f, twoWord g) := by
  constructor <;> intros <;> simp [hf, hg]

/-- The row of opcode 0x20, whose one-word form has a flag index as its dst field (R88). -/
theorem flagRow_keepsFields : RowKeepsFields 0x20 (flagForm .sfl, twoWord .illegal20Imm) := by
  constructor <;> intros <;> simp [fieldsOf]

theorem rowOf_keepsFields (op : BitVec 6) : RowKeepsFields op (rowOf op) := by
  obtain ⟨n, hn⟩ := op
  rcases lt_trichotomy n 32 with below | rfl | above
  case inr.inl => exact flagRow_keepsFields
  all_goals interval_cases n <;> exact registerRow_keepsFields (fun _ _ _ => rfl) (fun _ _ _ _ => rfl)

/-! ## Fields and instructions -/

/-- The instruction of a set of fields has these fields, when the immediate of a one-word form is 0. -/
theorem fieldsOf_instrOf {f : Fields} (h : f.hasImm = false → f.imm = 0) : fieldsOf (instrOf f) = f := by
  obtain ⟨op, hasImm, m, d, r, imm⟩ := f
  obtain ⟨hword, himm⟩ := rowOf_keepsFields op
  rw [instrOf_eq_row]
  cases hasImm with
  | false =>
    obtain rfl : imm = 0 := h rfl
    exact hword m d r
  | true => exact himm m d r imm

/-- Decoding keeps every field of the word (R81). -/
theorem fieldsOf_decodeWords (iw next : Word) : fieldsOf (decodeWords iw next) = splitFields iw next :=
  fieldsOf_instrOf fun h => if_neg (Bool.eq_false_iff.mp h)

/-! ## The form -/

/-- The form that op and I select, with every other field 0. -/
def formOf (op : BitVec 6) (hasImm : Bool) : Instr := instrOf ⟨op, hasImm, .always, 0, 0, 0⟩

/-- The row of R93's table depends on the form alone. -/
theorem fieldUse_formOf (i : Instr) : fieldUse i = fieldUse (formOf (fieldsOf i).op (fieldsOf i).hasImm) := by
  cases i <;> rfl

/-- The bits of the mask 0xFE00 are those of op and I. -/
theorem opOf_hasImmOf_of_mask {iw iw' : Word} (h : iw &&& 0xFE00 = iw' &&& 0xFE00) :
    opOf iw = opOf iw' ∧ hasImmOf iw = hasImmOf iw' := by
  have hbit (j : Nat) (hj : 9 ≤ j ∧ j < 16) : iw.getLsbD j = iw'.getLsbD j := by
    have hmask : (0xFE00 : Word).getLsbD j = true := by
      obtain ⟨hlo, hhi⟩ := hj
      interval_cases j <;> rfl
    have := congrArg (BitVec.getLsbD · j) h
    simpa only [BitVec.getLsbD_and, hmask, Bool.and_true] using this
  refine ⟨?_, hbit 9 (by omega)⟩
  apply BitVec.eq_of_getLsbD_eq
  intro k hk
  simp only [opOf, BitVec.getLsbD_extractLsb', hbit (10 + k) (by omega)]

end Sys2Proof

open Sys2Proof Sys2Proof.Machine

/-- Settles O3: decoding keeps the fields, the encoder packs them, and the form is a function of op and I. -/
theorem everyWordDecodesToItsFields : Obligations.EveryWordDecodesToItsFields := by
  refine ⟨?fields, fun _ => rfl, ?form⟩
  case fields =>
    intro iw next
    rw [fieldsOf_decodeWords]
    exact ⟨rfl, rfl, CondMode.bits_ofBits _, rfl, rfl⟩
  case form =>
    intro iw iw' next h
    obtain ⟨hop, himm⟩ := opOf_hasImmOf_of_mask h
    refine ⟨?_, ?_, ?_⟩
    · rw [fieldUse_formOf, fieldUse_formOf (decodeWords iw' next)]
      simp only [fieldsOf_decodeWords, splitFields, hop, himm]
    · simp only [isUnused, fieldsOf_decodeWords, splitFields, hop, himm]
    · simp only [Instr.length, fieldsOf_decodeWords, splitFields, himm]

end

section
/-! The condition mode (spec/30_encoding.md R84): the mode decides whether an instruction runs, and what it does when it
runs does not depend on the mode. -/

namespace Sys2Proof

/-! ## An instruction and its fields -/

open Laws.RoundTrip in
/-- Every instruction comes back from its words, by the law of its constructor. -/
theorem decodeWords_encodeWord (i : Instr) : decodeWords (encodeWord i) (immOf i) = i :=
  Instr.rec (motive := Laws.RoundTrip.Statement)
    movRegReg movRegImm movRegInd movRegAbs movIndReg movIndImm movIndInd movIndAbs movRegPostInc movAbsReg
    movPostIncReg movAbsInd mvl movRegDisp mvh movIndDisp nul movDispReg mkw movDispInd movRegSw movAbsSw
    movSwReg movSwImm movPostDecReg movPostDecImm movPostDecSw outAbsReg movRegPreInc illegal0EImm movSwPreInc
    illegal0FImm addReg addImm adcReg adcImm assReg assImm subReg illegal13Imm sbcReg illegal14Imm incReg
    illegal15Imm decReg illegal16Imm shlReg illegal17Imm rolReg illegal18Imm shrReg illegal19Imm rorReg
    illegal1AImm notReg illegal1BImm negReg illegal1CImm anlReg anlImm orlReg orlImm xorReg xorImm sfl
    illegal20Imm sexReg sexImm tmcReg tmcImm cmpReg cmpImm tstReg tstImm outIndReg outIndImm inRegInd inRegAbs
    illegal27Word illegal27Imm illegal28Word illegal28Imm illegal29Word illegal29Imm illegal2AWord illegal2AImm
    illegal2BWord illegal2BImm illegal2CWord illegal2CImm illegal2DWord illegal2DImm illegal2EWord illegal2EImm
    illegal2FWord illegal2FImm illegal30Word illegal30Imm illegal31Word illegal31Imm illegal32Word illegal32Imm
    illegal33Word illegal33Imm illegal34Word illegal34Imm illegal35Word illegal35Imm illegal36Word illegal36Imm
    illegal37Word illegal37Imm illegal38Word illegal38Imm illegal39Word illegal39Imm illegal3AWord illegal3AImm
    illegal3BWord illegal3BImm illegal3CWord illegal3CImm illegal3DWord illegal3DImm illegal3EWord illegal3EImm
    illegal3FWord illegal3FImm i

theorem fieldsOf_eq_splitFields (i : Instr) : fieldsOf i = splitFields (encodeWord i) (immOf i) := by
  rw [← fieldsOf_decodeWords, decodeWords_encodeWord]

/-- Every instruction comes back from its fields. -/
theorem instrOf_fieldsOf (i : Instr) : instrOf (fieldsOf i) = i := by
  rw [fieldsOf_eq_splitFields]
  exact decodeWords_encodeWord i

end Sys2Proof

namespace Sys2Proof.Machine

/-! ## The mode is only a guard -/

/-- An unused pair is a form whose effect is Trap(0), behind a check that never finds it privileged. -/
theorem illegal_eq_guarded (m : CondMode) (s : State) : illegal m s = guarded m false s (s.raiseTrap 0) := by
  simp only [illegal, guarded, Bool.and_false, Bool.false_eq_true, if_false]

/-- The instructions of a family over the modes share one privilege check and one effect. -/
def ModeOnlyGuards (f : CondMode → Instr) : Prop :=
  ∃ (p : Bool) (effect : State → State), ∀ m s, exec (f m) s = guarded m p s (effect s)

/-- A defined form gives its check and its effect outright. -/
theorem modeOnlyGuards_of_guarded {f : CondMode → Instr} {p : Bool} {effect : State → State}
    (h : ∀ m s, exec (f m) s = guarded m p s (effect s)) : ModeOnlyGuards f := ⟨p, effect, h⟩

theorem modeOnlyGuards_of_illegal {f : CondMode → Instr} (h : ∀ m s, exec (f m) s = illegal m s) : ModeOnlyGuards f :=
  modeOnlyGuards_of_guarded fun m s => (h m s).trans (illegal_eq_guarded m s)

/-- Both forms of a row are families over the modes that share a check and an effect, whatever the other fields. -/
def RowModeOnlyGuards (row : OpcodeRow) : Prop :=
  (∀ d r, ModeOnlyGuards fun m => row.1 m d r) ∧ ∀ d r imm, ModeOnlyGuards fun m => row.2 m d r imm

theorem registerRow_modeOnlyGuards {f : CondMode → Reg → Reg → Instr} {g : CondMode → Reg → Reg → Word → Instr}
    (hf : ∀ d r, ModeOnlyGuards fun m => f m d r) (hg : ∀ d r imm, ModeOnlyGuards fun m => g m d r imm) :
    RowModeOnlyGuards (oneWord f, twoWord g) :=
  ⟨fun _ _ => hf _ _, fun _ _ imm => hg _ _ imm⟩

theorem flagRow_modeOnlyGuards : RowModeOnlyGuards (flagForm .sfl, twoWord .illegal20Imm) :=
  ⟨fun _ _ => modeOnlyGuards_of_guarded fun _ _ => rfl, fun _ _ _ => modeOnlyGuards_of_illegal fun _ _ => rfl⟩

/-- Apart from the SFL row, a row has two defined forms, a defined and an unused one, or two unused ones. -/
theorem rowOf_modeOnlyGuards (op : BitVec 6) : RowModeOnlyGuards (rowOf op) := by
  obtain ⟨n, hn⟩ := op
  rcases lt_trichotomy n 32 with below | rfl | above
  case inr.inl => exact flagRow_modeOnlyGuards
  all_goals interval_cases n <;> first
    | exact registerRow_modeOnlyGuards (fun _ _ => modeOnlyGuards_of_guarded fun _ _ => rfl)
        (fun _ _ _ => modeOnlyGuards_of_guarded fun _ _ => rfl)
    | exact registerRow_modeOnlyGuards (fun _ _ => modeOnlyGuards_of_guarded fun _ _ => rfl)
        (fun _ _ _ => modeOnlyGuards_of_illegal fun _ _ => rfl)
    | exact registerRow_modeOnlyGuards (fun _ _ => modeOnlyGuards_of_illegal fun _ _ => rfl)
        (fun _ _ _ => modeOnlyGuards_of_illegal fun _ _ => rfl)

theorem instrOf_modeOnlyGuards (f : Fields) : ModeOnlyGuards fun m => instrOf { f with mode := m } := by
  obtain ⟨op, hasImm, _, d, r, imm⟩ := f
  obtain ⟨hword, himm⟩ := rowOf_modeOnlyGuards op
  cases hasImm with
  | false => exact hword d r
  | true => exact himm d r imm

/-- Two modes that both pass make no difference. -/
theorem guarded_mode_irrelevant {m m' : CondMode} {s : State} (h : condPass m s.sw = true)
    (h' : condPass m' s.sw = true) (p : Bool) (e : State) : guarded m p s e = guarded m' p s e := by
  simp only [guarded, h, h']

/-- Where its condition passes, an instruction does what it does under any other mode that passes. -/
theorem exec_mode_irrelevant {i : Instr} {m : CondMode} {s : State} (h : condPass i.mode s.sw = true)
    (hm : condPass m s.sw = true) : exec i s = exec (instrOf { fieldsOf i with mode := m }) s := by
  obtain ⟨p, effect, heff⟩ := instrOf_modeOnlyGuards (fieldsOf i)
  calc exec i s = exec (instrOf (fieldsOf i)) s := by rw [instrOf_fieldsOf]
    _ = guarded i.mode p s (effect s) := heff i.mode s
    _ = guarded m p s (effect s) := guarded_mode_irrelevant h hm p _
    _ = exec (instrOf { fieldsOf i with mode := m }) s := (heff m s).symm

/-- Where its condition does not pass, a defined form is skipped. -/
theorem exec_of_not_condPass {i : Instr} {s : State} (hi : isUnused i = false) (h : condPass i.mode s.sw = false) :
    exec i s = .next s := by
  obtain ⟨effect, heff⟩ := exec_guarded hi
  rw [heff, guarded_skipped h]

end Sys2Proof.Machine

open Sys2Proof Sys2Proof.Machine

/-- Settles O11: the formula mode by mode, and the mode as a mere guard of the effect. -/
theorem conditionModeTable : Obligations.ConditionModeTable := by
  refine ⟨?formula, fun _ => rfl, ?execution⟩
  case formula =>
    intro m sw
    cases m with
    | always | nc | nz | ns | never => rfl
    | c | z | s => exact (Bool.not_not _).symm
  case execution =>
    intro i s
    exact ⟨fun h => exec_mode_irrelevant h rfl, fun h hi _ => exec_of_not_condPass hi h⟩

end

section
/-! The flag index (spec/30_encoding.md R88): the SW bit and the value it names. -/

namespace Sys2Proof.Machine

/-- A flag index names its SW bit by its bits 1:0. -/
theorem flagBit_ofBits (b : BitVec 3) : flagBit (FlagIndex.ofBits b) = b.toNat % 4 := by decide +revert

/-- A flag index names the new value by its bit 2. -/
theorem flagValue_ofBits (b : BitVec 3) : flagValue (FlagIndex.ofBits b) = decide (4 ≤ b.toNat) := by decide +revert

/-- SFL is the only form whose dst field is a flag index. -/
theorem fieldUse_flagIndex_iff (i : Instr) : (fieldUse i).1 = .flagIndex ↔ ∃ m x r, i = .sfl m x r := by
  constructor
  · intro h
    cases i with
    | sfl m x r => exact ⟨m, x, r, rfl⟩
    | _ => exact FieldUse.noConfusion h
  · rintro ⟨m, x, r, rfl⟩
    rfl

/-- SFL gives SW the indexed bit in either mode, with no trap: its index is no register, so 6 is no access to R6. -/
theorem exec_sfl_of_condPass {m : CondMode} {s : State} (h : condPass m s.sw = true) (x : FlagIndex) (r : Reg) :
    exec (.sfl m x r) s = .next (s.setSw (applyFlagIndex s.sw x)) :=
  guarded_effect h (fun _ => rfl) _

/-- In kernel mode the indexed bit gets its value, whichever it is, and no other bit changes. -/
theorem getLsbD_applyFlagIndex_of_kernel {s : State} (hs : s.user = false) (x : FlagIndex) (j : Nat) :
    (applyFlagIndex s.sw x).getLsbD j = if j = flagBit x then flagValue x else s.sw.getLsbD j := by
  have hU : flagU s.sw = false := hs
  simp [getLsbD_applyFlagIndex, hU]

end Sys2Proof.Machine

open Sys2Proof Sys2Proof.Machine

/-- Settles O47: the index table, SFL as its only user, and SFL's effect in kernel mode. -/
theorem flagIndexTable : Obligations.FlagIndexTable := by
  refine ⟨rfl, fieldUse_flagIndex_iff, ?effect⟩
  case effect =>
    intro m b r s hpass hkernel
    refine ⟨_, exec_sfl_of_condPass hpass _ r, fun j => ?_⟩
    rw [State.setSw_sw, getLsbD_applyFlagIndex_of_kernel hkernel, flagBit_ofBits, flagValue_ofBits]

end

section
/-! TMC (spec/44_control.md R205 to R208): behind the checks it is the system call in user mode and the return in kernel
mode. -/

namespace Sys2Proof.Machine

variable {m : CondMode} {d r : Reg} {imm : Word} {s : State}

/-! ## The two modes of TMC -/

/-- Behind its checks `TMC src` is a choice by mode; only user mode minds that the number is in R6 (R205). -/
theorem exec_tmcReg_of_condPass (hc : condPass m s.sw = true) (hr : s.user = true → r ≠ .r6) :
    exec (.tmcReg m d r) s = .next (if s.user then s.systemCall (s.reg r) else s.returnFromTrap) :=
  guarded_namesR6_effect hc (fun hu h6 => hr hu (List.mem_singleton.mp h6).symm) _

/-- `TMC imm` uses no register field, so nothing but its condition is checked (R206). -/
theorem exec_tmcImm_of_condPass (hc : condPass m s.sw = true) :
    exec (.tmcImm m d r imm) s = .next (if s.user then s.systemCall imm else s.returnFromTrap) :=
  guarded_namesR6_effect hc (fun _ => List.not_mem_nil) _

/-- In kernel mode both forms are the return, whatever their fields. -/
theorem exec_tmc_of_kernel {i : Instr} (hi : i = .tmcReg m d r ∨ i = .tmcImm m d r imm)
    (hc : condPass m s.sw = true) (hkernel : s.user = false) : exec i s = .next s.returnFromTrap := by
  have hnot : ¬ s.user = true := Bool.eq_false_iff.mp hkernel
  rcases hi with rfl | rfl
  · rw [exec_tmcReg_of_condPass hc fun hu => absurd hu hnot, if_neg hnot]
  · rw [exec_tmcImm_of_condPass hc, if_neg hnot]

/-! ## What the system call and the return leave unchanged -/

/-- The system call is entry through the trap vector with the program's number (R207). -/
theorem State.systemCall_entered (s : State) (n : Word) :
    entered 0x0004 n false s (s.systemCall n) ∧ sameEnv s (s.systemCall n) :=
  ⟨s.enter_entered 0x0004 n false, s.enter_env 0x0004 n false⟩

/-- The list of all sixteen bits asks nothing of SW. -/
theorem sameSwExcept_all (s t : State) : sameSwExcept (List.range 16) s t := by
  intro j hj
  have hge : 16 ≤ j := Nat.le_of_not_lt fun hlt => hj (List.mem_range.mpr hlt)
  rw [BitVec.getLsbD_of_ge _ j hge, BitVec.getLsbD_of_ge _ j hge]

/-- The return writes R6, R7 and SW, and no memory: it only loads the two words it pops (R208). -/
theorem State.returnFromTrap_frame (s : State) : changesOnly [.r6, .r7] (List.range 16) [] s s.returnFromTrap := by
  refine ⟨fun x hx => ?_, sameSwExcept_all _ _, fun n _ => by rw [s.returnFromTrap_mem], s.returnFromTrap_env⟩
  obtain ⟨h6, h7⟩ : x ≠ .r6 ∧ x ≠ .r7 := by simpa using hx
  rw [s.returnFromTrap_reg, if_neg h7, if_neg h6]

end Sys2Proof.Machine

open Sys2Proof Sys2Proof.Machine

/-- Settles O22: in user mode both forms are the system call, which is entry through 0x0004. -/
theorem systemCallEntersTheTrapHandler : Obligations.SystemCallEntersTheTrapHandler := by
  intro m d r imm s hpass huser
  refine ⟨fun hr => ⟨_, ?register, s.systemCall_entered (s.reg r)⟩, _, ?immediate, s.systemCall_entered imm⟩
  case register => rw [exec_tmcReg_of_condPass hpass fun _ => hr, if_pos huser]
  case immediate => rw [exec_tmcImm_of_condPass hpass, if_pos huser]

/-- Settles O23: in kernel mode both forms are the return, whose SW write stores every bit but the reserved two. -/
theorem kernelTransferReturns : Obligations.KernelTransferReturns := by
  intro m d r imm i s hi hpass hkernel
  have hsw : s.returnFromTrap.sw = s.load (s.reg .r6 + 1) &&& 0xFF3F :=
    s.returnFromTrap_sw.trans (writeSw_of_kernel hkernel _)
  exact ⟨_, exec_tmc_of_kernel hi hpass hkernel, hsw, s.returnFromTrap_reg .r7, s.returnFromTrap_reg .r6,
    s.returnFromTrap_frame⟩

end

section
/-! The octets of an instruction (spec/30_encoding.md R81 to R83): the decoder and the encoder undo each other. -/

namespace Sys2Proof

open Machine

/-! ## Octets and words -/

/-- A word with I = 0 is the whole instruction. -/
theorem decode_oneWord {iw : Word} (h : hasImmOf iw = false) (rest : List Byte) :
    decode (bytesOfWord iw ++ rest) = .ok (decodeWords iw 0, rest) := by
  simp [decode, bytesOfWord, h]

/-- A word with I = 1 takes the next word as its immediate. -/
theorem decode_twoWords {iw : Word} (h : hasImmOf iw = true) (imm : Word) (rest : List Byte) :
    decode (bytesOfWord iw ++ (bytesOfWord imm ++ rest)) = .ok (decodeWords iw imm, rest) := by
  simp [decode, bytesOfWord, h]

/-- A word with I = 1 and no whole word after it is rejected by name. -/
theorem decode_noImmediateWord {iw : Word} (h : hasImmOf iw = true) {rest : List Byte} (hr : rest.length < 2) :
    decode (bytesOfWord iw ++ rest) = .error .noImmediateWord := by
  match rest, hr with
  | [], _ | [_], _ => simp [decode, bytesOfWord, h]

/-- Two octets or more are a word and what follows it. -/
theorem exists_bytesOfWord_append {bytes : List Byte} (h : 2 ≤ bytes.length) :
    ∃ (w : Word) (rest : List Byte), bytes = bytesOfWord w ++ rest := by
  match bytes, h with
  | lo :: hi :: rest, _ => exact ⟨wordOfBytes hi lo, rest, by simp [bytesOfWord]⟩

/-! ## The encoded words -/

@[simp] theorem hasImmOf_encodeWord (i : Instr) : hasImmOf (encodeWord i) = (fieldsOf i).hasImm :=
  hasImmOf_packFields ..

theorem encodeBytes_oneWord {i : Instr} (h : (fieldsOf i).hasImm = false) :
    encodeBytes i = bytesOfWord (encodeWord i) := by
  simp [encodeBytes, encode, h]

theorem encodeBytes_twoWords {i : Instr} (h : (fieldsOf i).hasImm = true) :
    encodeBytes i = bytesOfWord (encodeWord i) ++ bytesOfWord (immOf i) := by
  simp [encodeBytes, encode, h]

/-- A one-word form has no immediate. -/
theorem immOf_oneWord {i : Instr} (h : (fieldsOf i).hasImm = false) : immOf i = 0 := by
  rw [immOf, fieldsOf_eq_splitFields]
  exact if_neg (by simp [h])

/-! ## The decoded instruction -/

/-- The decoded instruction's own word is the word it was decoded from (R97). -/
@[simp] theorem encodeWord_decodeWords (iw next : Word) : encodeWord (decodeWords iw next) = iw := by
  simp only [encodeWord, fieldsOf_decodeWords]
  exact packFields_split iw

@[simp] theorem hasImm_decodeWords (iw next : Word) : (fieldsOf (decodeWords iw next)).hasImm = hasImmOf iw := by
  rw [fieldsOf_decodeWords, splitFields]

theorem immOf_decodeWords {iw : Word} (h : hasImmOf iw = true) (next : Word) : immOf (decodeWords iw next) = next := by
  rw [immOf, fieldsOf_decodeWords]
  exact if_pos h

/-- With I = 0 the word after the instruction word does not count (R83). -/
theorem decodeWords_of_oneWord {iw : Word} (h : hasImmOf iw = false) (next next' : Word) :
    decodeWords iw next = decodeWords iw next' := by
  simp [decodeWords, splitFields, h]

end Sys2Proof

open Sys2Proof Sys2Proof.Machine

/-- Settles O1: the first word carries I, so the decoder takes exactly the words that were encoded. -/
theorem decodeOfEncodeIsIdentity : Obligations.DecodeOfEncodeIsIdentity := by
  intro i rest
  have back := decodeWords_encodeWord i
  cases himm : (fieldsOf i).hasImm with
  | false =>
    rw [immOf_oneWord himm] at back
    rw [encodeBytes_oneWord himm, decode_oneWord (by simp [himm]), back]
  | true => rw [encodeBytes_twoWords himm, List.append_assoc, decode_twoWords (by simp [himm]), back]

/-- Settles O2: by the I bit of the first word, and whether a whole word follows it. -/
theorem encodeOfDecodeIsIdentity : Obligations.EncodeOfDecodeIsIdentity := by
  intro bytes rest i h
  rcases Nat.lt_or_ge bytes.length 2 with short | long
  · match bytes, short with
    | [], _ | [_], _ => cases h
  obtain ⟨iw, more, rfl⟩ := exists_bytesOfWord_append long
  cases himm : hasImmOf iw with
  | false =>
    rw [decode_oneWord himm] at h
    cases h
    rw [encodeBytes_oneWord (by simp [himm]), encodeWord_decodeWords]
  | true =>
    rcases Nat.lt_or_ge more.length 2 with short | long
    · rw [decode_noImmediateWord himm short] at h
      cases h
    obtain ⟨imm, more, rfl⟩ := exists_bytesOfWord_append long
    rw [decode_twoWords himm] at h
    cases h
    rw [encodeBytes_twoWords (by simp [himm]), encodeWord_decodeWords, immOf_decodeWords himm, List.append_assoc]

/-- Settles O4: each word by running the decoder. -/
theorem sampleWordsDecode : Obligations.SampleWordsDecode := by
  unfold Obligations.SampleWordsDecode
  decide

end

section
/-! The checks of a step (spec/30_encoding.md R86 steps 3 to 5): what every instruction does when it is skipped, when it
is an unused pair, and when it is privileged in user mode. -/

namespace Sys2Proof.Machine

/-! ## Traps -/

/-- The CPU's own traps are entry through 0x0004 with I unchanged (R304). -/
theorem State.raiseTrap_entered (s : State) (n : Word) :
    entered 0x0004 n false s (s.raiseTrap n) ∧ sameEnv s (s.raiseTrap n) :=
  ⟨s.enter_entered 0x0004 n false, s.enter_env 0x0004 n false⟩

/-! ## The three outcomes, for every instruction -/

/-- A skipped instruction changes nothing, an unused pair neither (R85). -/
theorem exec_skipped {i : Instr} {s : State} (h : condPass i.mode s.sw = false) : exec i s = .next s := by
  cases hi : isUnused i with
  | false => exact exec_of_not_condPass hi h
  | true => rw [exec_unused hi, illegal_eq_guarded, guarded_skipped h]

/-- An unused pair whose condition passes takes Trap(0), in either mode (R95). -/
theorem exec_unused_of_condPass {i : Instr} {s : State} (hi : isUnused i = true) (h : condPass i.mode s.sw = true) :
    exec i s = .next (s.raiseTrap 0) := by
  rw [exec_unused hi, illegal_eq_guarded, guarded_effect h fun _ => rfl]

/-- An unused pair uses no field, so it is not privileged. -/
theorem isUnused_of_privileged {i : Instr} (h : privileged i = true) : isUnused i = false := by
  have hfree : isUnused i = true → isIo i = false ∧ fieldUse i = (.unused, .unused) := by
    cases i <;> first
      | exact fun _ => ⟨rfl, rfl⟩
      | exact fun hi => Bool.noConfusion hi
  refine Bool.eq_false_iff.mpr fun hi => ?_
  obtain ⟨hio, huse⟩ := hfree hi
  simp [privileged, dstUsed, srcUsed, hio, huse] at h

/-- A privileged instruction whose condition passes takes Trap(1) in user mode (R302). -/
theorem exec_privileged {i : Instr} {s : State} (hp : privileged i = true) (h : condPass i.mode s.sw = true)
    (hu : s.user = true) : exec i s = .next (s.raiseTrap 1) := by
  obtain ⟨effect, heff⟩ := exec_guarded (isUnused_of_privileged hp)
  rw [heff, hp, guarded_trap h hu]

/-- Every instruction leads to a next state. -/
theorem exec_next (i : Instr) (s : State) : ∃ t, exec i s = .next t := by
  cases hi : isUnused i with
  | true =>
    rcases illegal_cases i.mode s with ⟨-, h⟩ | ⟨-, h⟩ <;> exact ⟨_, (exec_unused hi s).trans h⟩
  | false =>
    obtain ⟨effect, heff⟩ := exec_guarded hi
    rcases guarded_cases i.mode (privileged i) s (effect s) with ⟨-, h⟩ | ⟨-, -, -, h⟩ | ⟨-, -, h⟩ <;>
      exact ⟨_, (heff s).trans h⟩

end Sys2Proof.Machine

open Sys2Proof Sys2Proof.Machine

/-- Settles O7: an interrupt entry is a next state, and so is what any instruction does. -/
theorem everyStepGivesANextState : Obligations.EveryStepGivesANextState := by
  intro s
  rcases step_cases s with ⟨k, s1, -, hstep⟩ | ⟨s1, -, hstep⟩
  · exact ⟨_, hstep⟩
  · rw [hstep]
    exact exec_next _ _

/-- Settles O12. -/
theorem skippedInstructionChangesNothing : Obligations.SkippedInstructionChangesNothing :=
  fun _ _ => exec_skipped

/-- Settles O14. -/
theorem unusedPairsTakeTrapZero : Obligations.UnusedPairsTakeTrapZero :=
  fun _ s hi h => ⟨_, exec_unused_of_condPass hi h, s.raiseTrap_entered 0⟩

/-- Settles O15. -/
theorem privilegedInstructionTakesTrapOneInUserMode : Obligations.PrivilegedInstructionTakesTrapOneInUserMode :=
  fun _ s hp h hu => ⟨_, exec_privileged hp h hu, s.raiseTrap_entered 1⟩

end

section
/-! What the effect of a defined form can do, said once for all 65 forms: writes of registers and stores, then at most
one write of SW; one bus access; a system call; or a return. The invariants of a step are read off this list. -/

namespace Sys2Proof.Machine

/-! ## The kinds of effect -/

/-- R7, or a register that one of the form's used fields names. -/
def mayWrite (i : Instr) (r : Reg) : Prop :=
  r = .r7 ∨ (dstUsed i = true ∧ dstField i = some r) ∨ (srcUsed i = true ∧ srcField i = r)

/-- What writes of registers and stores can make of a state. -/
inductive DataWrites (i : Instr) (s : State) : State → Prop
  | nothing : DataWrites i s s
  | reg {t : State} {r : Reg} {v : Word} : DataWrites i s t → mayWrite i r → DataWrites i s (t.setReg r v)
  | mem {t : State} {a v : Word} : DataWrites i s t → DataWrites i s (t.store a v)

/-- What an instruction that is not TMC can make of SW. -/
inductive StatusWrite (i : Instr) (sw : Word) : Word → Prop
  | czs {r : Word} {c : Bool} : writesC i = true → writesZS i = true → StatusWrite i sw (setCZS sw r c)
  | zs {r : Word} : writesZS i = true → StatusWrite i sw (setZS sw r)
  | flag {m : CondMode} {x : FlagIndex} {r : Reg} : i = .sfl m x r → StatusWrite i sw (applyFlagIndex sw x)
  | whole {v : Word} : writesStatusWord i = true → StatusWrite i sw (writeSw sw v)

/-- What a defined form can make of a state when it executes. -/
inductive Effect (i : Instr) (s : State) : State → Prop
  | data {t : State} : isIo i = false → DataWrites i s t → Effect i s t
  | status {t : State} {w : Word} : isIo i = false → DataWrites i s t → StatusWrite i s.sw w → Effect i s (t.setSw w)
  | ioWrite {a v : Word} : isIo i = true → Effect i s (s.ioWrite a v)
  | ioRead {d : Reg} {a : Word} : isIo i = true → Effect i s (s.ioReadTo d a)
  | systemCall {n : Word} : writesStatusWord i = true → s.user = true → Effect i s (s.systemCall n)
  | trapReturn : writesStatusWord i = true → s.user = false → Effect i s s.returnFromTrap

theorem mayWrite_pc (i : Instr) : mayWrite i .r7 := .inl rfl
theorem mayWrite_dst {i : Instr} {r : Reg} (hu : dstUsed i = true) (h : dstField i = some r) : mayWrite i r :=
  .inr (.inl ⟨hu, h⟩)
theorem mayWrite_src {i : Instr} {r : Reg} (hu : srcUsed i = true) (h : srcField i = r) : mayWrite i r :=
  .inr (.inr ⟨hu, h⟩)

/-- One register written. -/
theorem DataWrites.oneReg {i : Instr} {s : State} {r : Reg} {v : Word} (h : mayWrite i r) :
    DataWrites i s (s.setReg r v) := .reg .nothing h

/-- One word stored. -/
theorem DataWrites.oneStore {i : Instr} {s : State} {a v : Word} : DataWrites i s (s.store a v) := .mem .nothing

/-- A word stored, then a register written. -/
theorem DataWrites.storeReg {i : Instr} {s : State} {a v w : Word} {r : Reg} (h : mayWrite i r) :
    DataWrites i s ((s.store a v).setReg r w) := .reg .oneStore h

/-- TMC is the system call or the return, by the mode it executes in. -/
theorem Effect.tmc {i : Instr} (h : writesStatusWord i = true) (s : State) (n : Word) :
    Effect i s (if s.user then s.systemCall n else s.returnFromTrap) := by
  cases hu : s.user with
  | true => exact .systemCall h hu
  | false => exact .trapReturn h hu

/-- Every defined form is one of these effects behind the checks. -/
theorem exec_effect {i : Instr} (h : isUnused i = false) (s : State) :
    ∃ e, Effect i s e ∧ exec i s = guarded i.mode (privileged i) s e := by
  have key : ∃ (p : Bool) (e : State), p = privileged i ∧ Effect i s e ∧ exec i s = guarded i.mode p s e := by
    cases i with
    | movRegReg m d r | movRegInd m d r | movRegDisp m d r _ | mvl m d r | mvh m d r | mkw m d r | assReg m d r =>
      exact ⟨_, _, namesR6_both d r, .data rfl (.oneReg (mayWrite_dst rfl rfl)), rfl⟩
    | movRegImm m d r _ | movRegAbs m d r _ | nul m d r | movRegSw m d r | assImm m d r _ =>
      exact ⟨_, _, namesR6_dst d r, .data rfl (.oneReg (mayWrite_dst rfl rfl)), rfl⟩
    | movIndReg m d r | movIndInd m d r | movIndDisp m d r _ | movDispReg m d r _ | movDispInd m d r _ =>
      exact ⟨_, _, namesR6_both d r, .data rfl .oneStore, rfl⟩
    | movIndImm m d r _ | movIndAbs m d r _ => exact ⟨_, _, namesR6_dst d r, .data rfl .oneStore, rfl⟩
    | movAbsReg m d r _ | movAbsInd m d r _ => exact ⟨_, _, namesR6_src d r, .data rfl .oneStore, rfl⟩
    | movAbsSw m d r _ => exact ⟨_, _, namesR6_none d r, .data rfl .oneStore, rfl⟩
    | movPostIncReg m d r | movPostDecReg m d r =>
      exact ⟨_, _, namesR6_both d r, .data rfl (.storeReg (mayWrite_dst rfl rfl)), rfl⟩
    | movPostDecImm m d r _ | movPostDecSw m d r =>
      exact ⟨_, _, namesR6_dst d r, .data rfl (.storeReg (mayWrite_dst rfl rfl)), rfl⟩
    | movRegPostInc m d r | movRegPreInc m d r =>
      exact ⟨_, _, namesR6_both d r, .data rfl (.reg (.oneReg (mayWrite_src rfl rfl)) (mayWrite_dst rfl rfl)), rfl⟩
    | sexReg m d r =>
      exact ⟨_, _, namesR6_both d r, .data rfl (.reg (.storeReg (mayWrite_dst rfl rfl)) (mayWrite_pc _)), rfl⟩
    | sexImm m d r _ =>
      exact ⟨_, _, namesR6_dst d r, .data rfl (.reg (.storeReg (mayWrite_dst rfl rfl)) (mayWrite_pc _)), rfl⟩
    | addReg m d r | adcReg m d r | subReg m d r | sbcReg m d r | incReg m d r | decReg m d r | shlReg m d r
    | rolReg m d r | shrReg m d r | rorReg m d r | negReg m d r =>
      exact ⟨_, _, namesR6_both d r, .status rfl (.oneReg (mayWrite_dst rfl rfl)) (.czs rfl rfl), rfl⟩
    | addImm m d r _ | adcImm m d r _ =>
      exact ⟨_, _, namesR6_dst d r, .status rfl (.oneReg (mayWrite_dst rfl rfl)) (.czs rfl rfl), rfl⟩
    | notReg m d r | anlReg m d r | orlReg m d r | xorReg m d r =>
      exact ⟨_, _, namesR6_both d r, .status rfl (.oneReg (mayWrite_dst rfl rfl)) (.zs rfl), rfl⟩
    | anlImm m d r _ | orlImm m d r _ | xorImm m d r _ =>
      exact ⟨_, _, namesR6_dst d r, .status rfl (.oneReg (mayWrite_dst rfl rfl)) (.zs rfl), rfl⟩
    | cmpReg m d r => exact ⟨_, _, namesR6_both d r, .status rfl .nothing (.czs rfl rfl), rfl⟩
    | cmpImm m d r _ => exact ⟨_, _, namesR6_dst d r, .status rfl .nothing (.czs rfl rfl), rfl⟩
    | tstReg m d r => exact ⟨_, _, namesR6_both d r, .status rfl .nothing (.zs rfl), rfl⟩
    | tstImm m d r _ => exact ⟨_, _, namesR6_dst d r, .status rfl .nothing (.zs rfl), rfl⟩
    | sfl m x r => exact ⟨_, _, namesR6_sfl r, .status rfl .nothing (.flag rfl), rfl⟩
    | movSwReg m d r => exact ⟨_, _, namesR6_dst d r, .status rfl .nothing (.whole rfl), rfl⟩
    | movSwImm m d r _ => exact ⟨_, _, namesR6_none d r, .status rfl .nothing (.whole rfl), rfl⟩
    | movSwPreInc m d r =>
      exact ⟨_, _, namesR6_src d r, .status rfl (.oneReg (mayWrite_src rfl rfl)) (.whole rfl), rfl⟩
    | tmcReg m d r => exact ⟨_, _, namesR6_src d r, .tmc rfl s _, rfl⟩
    | tmcImm m d r _ => exact ⟨_, _, namesR6_none d r, .tmc rfl s _, rfl⟩
    | outAbsReg | outIndReg | outIndImm => exact ⟨_, _, privilegedBy_io _ _ _ _, .ioWrite rfl, rfl⟩
    | inRegInd | inRegAbs => exact ⟨_, _, privilegedBy_io _ _ _ _, .ioRead rfl, rfl⟩
    | _ => exact Bool.noConfusion h
  obtain ⟨p, e, rfl, heffect, hexec⟩ := key
  exact ⟨e, heffect, hexec⟩

/-- Everything an instruction can answer: the state unchanged, a trap, or its effect, which user mode gets only from an
instruction that is not privileged. -/
theorem exec_cases {i : Instr} {s t : State} (h : exec i s = .next t) :
    t = s ∨ (∃ n, t = s.raiseTrap n) ∨ ((s.user = true → privileged i = false) ∧ Effect i s t) := by
  cases hi : isUnused i with
  | true =>
    rw [exec_unused hi] at h
    rcases illegal_cases i.mode s with ⟨-, hill⟩ | ⟨-, hill⟩ <;> cases hill.symm.trans h
    · exact .inl rfl
    · exact .inr (.inl ⟨0, rfl⟩)
  | false =>
    obtain ⟨e, heffect, hexec⟩ := exec_effect hi s
    rw [hexec] at h
    rcases guarded_cases i.mode (privileged i) s e with ⟨-, hg⟩ | ⟨-, -, -, hg⟩ | ⟨-, hp, hg⟩ <;> cases hg.symm.trans h
    · exact .inl rfl
    · exact .inr (.inl ⟨1, rfl⟩)
    · exact .inr (.inr ⟨hp, heffect⟩)

/-! ## What data writes leave -/

theorem DataWrites.frame {i : Instr} {s t : State} (h : DataWrites i s t) :
    t.sw = s.sw ∧ sameEnv s t ∧ ∀ r, ¬ mayWrite i r → t.reg r = s.reg r := by
  induction h with
  | nothing => exact ⟨rfl, ⟨rfl, rfl, rfl, rfl⟩, fun _ _ => rfl⟩
  | @reg t r v _ hw ih =>
    obtain ⟨hsw, henv, hregs⟩ := ih
    refine ⟨hsw, henv, fun x hx => ?_⟩
    have hxr : x ≠ r := fun e => hx (e ▸ hw)
    rw [State.reg_setReg_of_ne _ _ _ _ hxr, hregs x hx]
  | mem _ ih => exact ih

theorem DataWrites.wf {i : Instr} {s t : State} (h : DataWrites i s t) (hs : s.mem.wf = true) : t.mem.wf = true := by
  induction h with
  | nothing => exact hs
  | reg _ _ ih => exact ih
  | mem _ ih => exact Memory.writeWord_wf ih _ _

/-! ## What a write of SW leaves, bit by bit -/

/-- The instructions that write a bit of SW, by the lists of R29; U apart, which entries clear, and I, which SFL writes
besides. -/
def writerOf : Nat → Instr → Bool
  | 0 => writesC
  | 1 => writesZ
  | 2 => writesS
  | _ => writesStatusWord

theorem writerOf_of_two_lt {j : Nat} (h : 2 < j) : writerOf j = writesStatusWord := by
  match j, h with
  | _ + 3, _ => rfl

theorem writerOf_of_writesStatusWord {i : Instr} (h : writesStatusWord i = true) (j : Nat) : writerOf j i = true := by
  match j with
  | 0 => simp [writerOf, writesC, h]
  | 1 => simp [writerOf, writesZ, h]
  | 2 => simp [writerOf, writesS, h]
  | _ + 3 => exact h

/-- The arithmetic and logic instructions write both Z and S. -/
theorem writerOf_of_writesZS {i : Instr} (h : writesZS i = true) {j : Nat} (hj : j = 1 ∨ j = 2) :
    writerOf j i = true := by
  rcases hj with rfl | rfl
  · simp [writerOf, writesZ, h]
  · simp [writerOf, writesS, h]

/-- SFL is in the list of the bit its index names, I apart. -/
theorem writerOf_sfl {x : FlagIndex} (h : flagBit x ≠ 3) (m : CondMode) (r : Reg) :
    writerOf (flagBit x) (.sfl m x r) = true := by
  cases x <;> first
    | rfl
    | exact absurd rfl h

/-- A bit of SW other than I changes only under an instruction of its list. -/
theorem StatusWrite.getLsbD_of_not_writer {i : Instr} {sw w : Word} (h : StatusWrite i sw w) {j : Nat} (hj : j ≠ 3)
    (hi : writerOf j i = false) : w.getLsbD j = sw.getLsbD j := by
  have absent {k : Nat} (hw : writerOf k i = true) : j ≠ k := by
    rintro rfl
    exact Bool.noConfusion (hw.symm.trans hi)
  cases h with
  | czs hC hZS =>
    rw [getLsbD_setCZS, if_neg (absent (k := 0) hC), if_neg (absent (writerOf_of_writesZS hZS (.inl rfl))),
      if_neg (absent (writerOf_of_writesZS hZS (.inr rfl)))]
  | zs hZS =>
    rw [getLsbD_setZS, if_neg (absent (writerOf_of_writesZS hZS (.inl rfl))),
      if_neg (absent (writerOf_of_writesZS hZS (.inr rfl)))]
  | @flag m x r hsfl =>
    subst hsfl
    have hx : j ≠ flagBit x := fun e => absent (writerOf_sfl (e ▸ hj) m r) e
    rw [getLsbD_applyFlagIndex, if_neg fun hbit => hx hbit.1]
  | whole hw => exact absurd rfl (absent (writerOf_of_writesStatusWord hw j))

/-- In user mode only S, Z and C can change (R33, R201). -/
theorem StatusWrite.getLsbD_of_user {i : Instr} {sw w : Word} (h : StatusWrite i sw w) (hu : flagU sw = true)
    {j : Nat} (hj : 2 < j) : w.getLsbD j = sw.getLsbD j := by
  cases h with
  | czs => rw [getLsbD_setCZS, if_neg (by omega), if_neg (by omega), if_neg (by omega)]
  | zs => rw [getLsbD_setZS, if_neg (by omega), if_neg (by omega)]
  | @flag m x r _ =>
    have hx : flagBit x ≤ 3 := by cases x <;> decide
    rw [getLsbD_applyFlagIndex, if_neg fun hbit => hbit.2 ⟨by omega, hu⟩]
  | whole _ =>
    rcases Nat.lt_or_ge j 16 with hlt | hge
    · rw [getLsbD_writeSw _ _ hlt, if_pos hu, if_neg (by omega)]
    · rw [BitVec.getLsbD_of_ge _ _ hge, BitVec.getLsbD_of_ge _ _ hge]

/-- A write of SW as a whole leaves bits 7:6 clear where they were clear (R33). -/
theorem writeSw_reserved {sw : Word} (v : Word) {j : Nat} (hj : j = 6 ∨ j = 7) (h : sw.getLsbD j = false) :
    (writeSw sw v).getLsbD j = false := by
  rw [getLsbD_writeSw _ _ (by omega)]
  cases flagU sw with
  | true => rw [if_pos rfl, if_neg (by omega), h]
  | false =>
    have hout : decide (j ≠ 6 ∧ j ≠ 7) = false := decide_eq_false (by omega)
    rw [if_neg Bool.false_ne_true, hout, Bool.and_false]

/-- No write of SW sets a reserved bit. -/
theorem StatusWrite.reserved {i : Instr} {sw w : Word} (h : StatusWrite i sw w) {j : Nat} (hj : j = 6 ∨ j = 7)
    (hz : sw.getLsbD j = false) : w.getLsbD j = false := by
  cases hi : writesStatusWord i with
  | false =>
    have hout : writerOf j i = false := (congrFun (writerOf_of_two_lt (by omega)) i).trans hi
    rw [h.getLsbD_of_not_writer (by omega) hout, hz]
  | true =>
    cases h with
    | whole _ => exact writeSw_reserved _ hj hz
    | czs => rw [getLsbD_setCZS, if_neg (by omega), if_neg (by omega), if_neg (by omega), hz]
    | zs => rw [getLsbD_setZS, if_neg (by omega), if_neg (by omega), hz]
    | flag hsfl => subst hsfl; exact Bool.noConfusion hi

/-! ## What a read of the bus leaves -/

theorem State.ioReadTo_eq (s : State) (d : Reg) (a : Word) : s.ioReadTo d a = (s.ioRead a).2.setReg d (s.ioRead a).1 :=
  rfl

theorem State.ioReadTo_frame (s : State) (d : Reg) (a : Word) :
    (s.ioReadTo d a).sw = s.sw ∧ (s.ioReadTo d a).mem = s.mem := by
  obtain ⟨-, hsw, hmem, -, -⟩ := s.ioRead_frame a
  exact ⟨hsw, hmem⟩

end Sys2Proof.Machine
end

section
/-! The invariants of a step: canonical memory and clear reserved bits, the confinement of user code, who enters user
mode, who writes which flag, and who reaches the I/O bus. -/

namespace Sys2Proof.Machine

/-! ## The invariant (spec/10_state.md R33) -/

/-- A state with the same memory and SW has the invariant too. -/
theorem State.Inv.congr {s t : State} (h : s.Inv) (hmem : t.mem = s.mem) (hsw : t.sw = s.sw) : t.Inv := by
  obtain ⟨hwf, h6, h7⟩ := h
  exact ⟨hmem ▸ hwf, hsw ▸ h6, hsw ▸ h7⟩

theorem State.enter_inv {s : State} (h : s.Inv) (vec n : Word) (c : Bool) : (s.enter vec n c).Inv := by
  obtain ⟨hwf, h6, h7⟩ := h
  refine ⟨?_, ?_, ?_⟩
  · rw [State.enter_mem]
    exact Memory.writeWord_wf (Memory.writeWord_wf (Memory.writeWord_wf hwf _ _) _ _) _ _
  · exact (s.enter_sw vec n c 6).trans h6
  · exact (s.enter_sw vec n c 7).trans h7

theorem State.returnFromTrap_inv {s : State} (h : s.Inv) : s.returnFromTrap.Inv := by
  obtain ⟨hwf, h6, h7⟩ := h
  exact ⟨hwf, writeSw_reserved _ (.inl rfl) h6, writeSw_reserved _ (.inr rfl) h7⟩

theorem Effect.inv {i : Instr} {s t : State} (h : Effect i s t) (hs : s.Inv) : t.Inv := by
  have ⟨hwf, h6, h7⟩ := hs
  cases h with
  | data _ hd =>
    obtain ⟨hsw, -, -⟩ := hd.frame
    exact ⟨hd.wf hwf, hsw ▸ h6, hsw ▸ h7⟩
  | status _ hd hw => exact ⟨hd.wf hwf, hw.reserved (.inl rfl) h6, hw.reserved (.inr rfl) h7⟩
  | ioWrite _ => exact hs
  | @ioRead d a _ =>
    obtain ⟨hsw, hmem⟩ := s.ioReadTo_frame d a
    exact hs.congr hmem hsw
  | systemCall _ _ => exact s.enter_inv hs _ _ _
  | trapReturn _ _ => exact s.returnFromTrap_inv hs

theorem exec_inv {i : Instr} {s t : State} (h : exec i s = .next t) (hs : s.Inv) : t.Inv := by
  rcases exec_cases h with rfl | ⟨n, rfl⟩ | ⟨-, heffect⟩
  · exact hs
  · exact s.enter_inv hs _ _ _
  · exact heffect.inv hs

/-! ## User code (spec/60_exceptions.md R301) -/

/-- User code that stays in user mode: R6, the bus and all of SW but S, Z and C as they were. -/
def staysConfined (s t : State) : Prop :=
  t.user = true ∧ t.reg .r6 = s.reg .r6 ∧ sameSwExcept [0, 1, 2] s t ∧ t.ioTrace = s.ioTrace

/-- User code that has entered the kernel at one of the two entry points. -/
def entersKernel (s t : State) : Prop :=
  t.user = false ∧ (t.reg .r7 = 0x0002 ∨ t.reg .r7 = 0x0004) ∧ t.reg .r6 = s.reg .r6 - 3
    ∧ t.load (s.reg .r6 - 1) = s.sw ∧ t.ioTrace = s.ioTrace

/-- Entry through one of the two vectors is entering the kernel. -/
theorem entersKernel_of_entered {vec n : Word} {c : Bool} {s t : State} (hvec : vec = 0x0002 ∨ vec = 0x0004)
    (h : entered vec n c s t) : entersKernel s t := by
  obtain ⟨-, hload, -, hr6, hr7, hU, -, -, -, -, htrace⟩ := h
  exact ⟨hU, hr7 ▸ hvec, hr6, hload, htrace⟩

theorem staysConfined_refl {s : State} (hu : s.user = true) : staysConfined s s := ⟨hu, rfl, fun _ _ => rfl, rfl⟩

/-- An instruction that writes R6 is privileged (R302). -/
theorem not_mayWrite_r6 {i : Instr} (h : privileged i = false) : ¬ mayWrite i .r6 := by
  rintro (h7 | ⟨hu, hd⟩ | ⟨hu, hr⟩)
  · exact Reg.noConfusion h7
  · simp [privileged, hu, hd] at h
  · simp [privileged, hu, hr] at h

theorem not_isIo_of_not_privileged {i : Instr} (h : privileged i = false) : isIo i = false := by
  cases hio : isIo i with
  | false => rfl
  | true => simp [privileged, hio] at h

/-- Data writes of an instruction that is not privileged leave what user code may not touch. -/
theorem DataWrites.confined {i : Instr} {s t : State} (h : DataWrites i s t) (hp : privileged i = false)
    (hu : s.user = true) : staysConfined s t := by
  obtain ⟨hsw, ⟨htrace, -, -, -⟩, hregs⟩ := h.frame
  exact ⟨(congrArg flagU hsw).trans hu, hregs .r6 (not_mayWrite_r6 hp), fun j _ => by rw [hsw], htrace⟩

theorem Effect.confined {i : Instr} {s t : State} (h : Effect i s t) (hp : privileged i = false)
    (hu : s.user = true) : staysConfined s t ∨ entersKernel s t := by
  have hio : isIo i = false := not_isIo_of_not_privileged hp
  cases h with
  | data _ hd => exact .inl (hd.confined hp hu)
  | @status t w _ hd hw =>
    obtain ⟨-, hr6, -, htrace⟩ := hd.confined hp hu
    refine .inl ⟨(hw.getLsbD_of_user hu (by decide)).trans hu, hr6, fun j hj => ?_, htrace⟩
    simp only [List.mem_cons, List.not_mem_nil, or_false] at hj
    exact hw.getLsbD_of_user hu (by omega)
  | ioWrite h | ioRead h => exact Bool.noConfusion (h.symm.trans hio)
  | systemCall _ _ => exact .inr (entersKernel_of_entered (.inr rfl) (s.enter_entered _ _ _))
  | trapReturn _ hk => exact Bool.noConfusion (hk.symm.trans hu)

theorem exec_confined {i : Instr} {s t : State} (h : exec i s = .next t) (hu : s.user = true) :
    staysConfined s t ∨ entersKernel s t := by
  rcases exec_cases h with rfl | ⟨n, rfl⟩ | ⟨hp, heffect⟩
  · exact .inl (staysConfined_refl hu)
  · exact .inr (entersKernel_of_entered (.inr rfl) (s.enter_entered _ _ _))
  · exact heffect.confined (hp hu) hu

/-- Where user code stands does not matter for its confinement: R7 and what is taken from the interrupt script do not
appear in it. -/
theorem confined_congr {s s' t : State} (hr6 : s'.reg .r6 = s.reg .r6) (hsw : s'.sw = s.sw)
    (htrace : s'.ioTrace = s.ioTrace) (h : staysConfined s' t ∨ entersKernel s' t) :
    staysConfined s t ∨ entersKernel s t := by
  simpa only [staysConfined, entersKernel, sameSwExcept, hr6, hsw, htrace] using h

/-! ## What the sampling and the fetch before an instruction leave -/

/-- Sampling leaves every register. -/
theorem sampleInterrupt_reg (s : State) (r : Reg) : (sampleInterrupt s).2.reg r = s.reg r := by
  obtain ⟨hregs, -⟩ := sampleInterrupt_frame s
  simp only [State.reg, hregs]

/-- Fetching leaves every register but R7. -/
theorem fetch_reg_of_ne (s : State) {r : Reg} (h : r ≠ .r7) : (fetch s).2.reg r = s.reg r := by
  rw [fetch_state, State.reg_setPc_of_ne _ _ _ h]

/-! ## Flags (spec/10_state.md R29, R32, R34) -/

/-- The bits of SW that an instruction has no part in are as before; but for I, which SFL and an interrupt write, and U,
which every entry clears. -/
def keepsStatus (i : Instr) (s t : State) : Prop :=
  ∀ j, j ≠ 3 → j ≠ 4 → writerOf j i = false → t.sw.getLsbD j = s.sw.getLsbD j

theorem keepsStatus_of_sw_eq (i : Instr) {s t : State} (h : t.sw = s.sw) : keepsStatus i s t :=
  fun _ _ _ _ => by rw [h]

/-- A write of SW as a whole is in every list. -/
theorem keepsStatus_of_whole {i : Instr} (h : writesStatusWord i = true) (s t : State) : keepsStatus i s t :=
  fun j _ _ hi => Bool.noConfusion ((writerOf_of_writesStatusWord h j).symm.trans hi)

theorem State.enter_keepsStatus (i : Instr) (s : State) (vec n : Word) (c : Bool) :
    keepsStatus i s (s.enter vec n c) :=
  fun j h3 h4 _ => by rw [State.enter_sw, if_neg h4, if_neg h3]

theorem Effect.keepsStatus {i : Instr} {s t : State} (h : Effect i s t) : keepsStatus i s t := by
  cases h with
  | data _ hd =>
    obtain ⟨hsw, -, -⟩ := hd.frame
    exact keepsStatus_of_sw_eq i hsw
  | status _ _ hw => exact fun j h3 _ hi => hw.getLsbD_of_not_writer h3 hi
  | ioWrite _ => exact keepsStatus_of_sw_eq i rfl
  | @ioRead d a _ =>
    obtain ⟨hsw, -⟩ := s.ioReadTo_frame d a
    exact keepsStatus_of_sw_eq i hsw
  | systemCall hw _ | trapReturn hw _ => exact keepsStatus_of_whole hw _ _

theorem exec_keepsStatus {i : Instr} {s t : State} (h : exec i s = .next t) : keepsStatus i s t := by
  rcases exec_cases h with rfl | ⟨n, rfl⟩ | ⟨-, heffect⟩
  · exact keepsStatus_of_sw_eq i rfl
  · exact s.enter_keepsStatus i _ _ _
  · exact heffect.keepsStatus

/-- Two status words with the same bits 15:8 have the same interrupt mask. -/
theorem irqMask_eq {sw w : Word} (h : ∀ j, 7 < j → w.getLsbD j = sw.getLsbD j) : irqMask w = irqMask sw := by
  apply BitVec.eq_of_getLsbD_eq
  intro k hk
  simp only [irqMask, BitVec.getLsbD_extractLsb', h (8 + k) (by omega)]

/-! ## Entering user mode (spec/10_state.md R31) -/

/-- The writers of SW as a whole, by name. -/
theorem writesStatusWord_iff (i : Instr) : writesStatusWord i = true ↔
    (∃ m d r, i = .movSwReg m d r) ∨ (∃ m d r imm, i = .movSwImm m d r imm) ∨ (∃ m d r, i = .movSwPreInc m d r)
      ∨ (∃ m d r, i = .tmcReg m d r) ∨ (∃ m d r imm, i = .tmcImm m d r imm) := by
  constructor
  · intro h
    cases i with
    | movSwReg m d r => exact .inl ⟨m, d, r, rfl⟩
    | movSwImm m d r imm => exact .inr (.inl ⟨m, d, r, imm, rfl⟩)
    | movSwPreInc m d r => exact .inr (.inr (.inl ⟨m, d, r, rfl⟩))
    | tmcReg m d r => exact .inr (.inr (.inr (.inl ⟨m, d, r, rfl⟩)))
    | tmcImm m d r imm => exact .inr (.inr (.inr (.inr ⟨m, d, r, imm, rfl⟩)))
    | _ => exact Bool.noConfusion h
  · rintro (⟨_, _, _, rfl⟩ | ⟨_, _, _, _, rfl⟩ | ⟨_, _, _, rfl⟩ | ⟨_, _, _, rfl⟩ | ⟨_, _, _, _, rfl⟩) <;> rfl

/-- Without a write of SW as a whole the effect of an instruction keeps the mode. -/
theorem Effect.user_of_not_whole {i : Instr} {s t : State} (h : Effect i s t) (hi : writesStatusWord i = false) :
    t.user = s.user := by
  cases h with
  | data _ hd =>
    obtain ⟨hsw, -, -⟩ := hd.frame
    exact congrArg flagU hsw
  | status _ _ hw => exact hw.getLsbD_of_not_writer (j := 4) (by decide) hi
  | ioWrite _ => rfl
  | @ioRead d a _ =>
    obtain ⟨hsw, -⟩ := s.ioReadTo_frame d a
    exact congrArg flagU hsw
  | systemCall hw _ | trapReturn hw _ => exact Bool.noConfusion (hw.symm.trans hi)

theorem State.enter_user (s : State) (vec n : Word) (c : Bool) : (s.enter vec n c).user = false := s.enter_sw vec n c 4

/-! ## The I/O bus (spec/46_io.md R226) -/

/-- The effect of a form that is no I/O form takes nothing from the environment and shows it nothing. -/
theorem Effect.sameEnv_of_not_io {i : Instr} {s t : State} (h : Effect i s t) (hi : isIo i = false) : sameEnv s t := by
  cases h with
  | data _ hd | status _ hd _ =>
    obtain ⟨-, henv, -⟩ := hd.frame
    exact henv
  | ioWrite hio | ioRead hio => exact Bool.noConfusion (hio.symm.trans hi)
  | systemCall _ _ => exact s.enter_env _ _ _
  | trapReturn _ _ => exact s.returnFromTrap_env

/-- The effect of an I/O form is exactly one access. -/
theorem Effect.oneAccess_of_io {i : Instr} {s t : State} (h : Effect i s t) (hi : isIo i = true) :
    ∃ e, t.ioTrace = s.ioTrace ++ [e] := by
  cases h with
  | data hio _ | status hio _ _ => exact Bool.noConfusion (hio.symm.trans hi)
  | ioWrite _ => exact ⟨_, rfl⟩
  | @ioRead d a _ =>
    obtain ⟨-, -, -, -, htrace⟩ := s.ioRead_frame a
    exact ⟨_, htrace⟩
  | systemCall hw _ | trapReturn hw _ =>
    rcases (writesStatusWord_iff i).mp hw with
      ⟨_, _, _, rfl⟩ | ⟨_, _, _, _, rfl⟩ | ⟨_, _, _, rfl⟩ | ⟨_, _, _, rfl⟩ | ⟨_, _, _, _, rfl⟩ <;>
      exact Bool.noConfusion hi

theorem not_isUnused_of_isIo {i : Instr} (h : isIo i = true) : isUnused i = false :=
  isUnused_of_privileged (by simp [privileged, h])

end Sys2Proof.Machine

open Sys2Proof Sys2Proof.Machine

/-- Settles O8: an entry keeps the invariant, sampling and fetching do not touch it, and every effect keeps it. -/
theorem everyStepKeepsTheInvariant : Obligations.EveryStepKeepsTheInvariant := by
  intro s t hs hstep
  have sampled {o s1} (h : sampleInterrupt s = (o, s1)) : s1.Inv := by
    obtain ⟨-, hsw, hmem, -, -⟩ := sampleInterrupt_frame s
    rw [h] at hsw hmem
    exact hs.congr hmem hsw
  rcases step_cases s with ⟨k, s1, hsample, h⟩ | ⟨s1, hsample, h⟩ <;> rw [h] at hstep
  · cases hstep
    exact s1.enter_inv (sampled hsample) _ _ _
  · have hfetched : (fetch s1).2.Inv := by
      rw [fetch_state]
      exact (sampled hsample).congr rfl rfl
    exact exec_inv hstep hfetched

/-- Settles O16: an interrupt enters at 2; an instruction is skipped, traps, calls, or has an effect that user code may
have, since one that writes R6 or reaches the bus is privileged. -/
theorem userModeIsConfined : Obligations.UserModeIsConfined := by
  intro s t hu hstep
  obtain ⟨-, hsw, -, htrace, -⟩ := sampleInterrupt_frame s
  have hr6 := sampleInterrupt_reg s .r6
  rcases step_cases s with ⟨k, s1, hsample, h⟩ | ⟨s1, hsample, h⟩ <;> rw [h] at hstep <;>
    rw [hsample] at hsw htrace hr6
  · cases hstep
    exact confined_congr hr6 hsw htrace (.inr (entersKernel_of_entered (.inl rfl) (s1.enter_entered _ _ _)))
  · have hfetched : (fetch s1).2.sw = s1.sw ∧ (fetch s1).2.ioTrace = s1.ioTrace := by
      rw [fetch_state]
      exact ⟨rfl, rfl⟩
    obtain ⟨hfsw, hftrace⟩ := hfetched
    have hfu : (fetch s1).2.user = true := (congrArg flagU (hfsw.trans hsw)).trans hu
    exact confined_congr ((fetch_reg_of_ne s1 (by decide)).trans hr6) (hfsw.trans hsw) (hftrace.trans htrace)
      (exec_confined hstep hfu)

/-- Settles O9. -/
theorem resetHasTheInvariant : Obligations.ResetHasTheInvariant := ⟨reset_mem_wf, rfl, rfl⟩

/-- Settles O10. -/
theorem resetStartsInKernelModeAtZero : Obligations.ResetStartsInKernelModeAtZero := by
  refine ⟨rfl, rfl, rfl, rfl, ?_, rfl⟩
  decide

/-- Settles O17: neither a skip nor a trap enters user mode, and an effect that changes U writes SW as a whole. -/
theorem userModeIsEnteredOnlyByStatusWrites : Obligations.UserModeIsEnteredOnlyByStatusWrites := by
  intro i s t hkernel hexec huser
  refine (writesStatusWord_iff i).mp ?_
  by_contra hi
  rw [Bool.not_eq_true] at hi
  have same : t.user = false := by
    rcases exec_cases hexec with rfl | ⟨n, rfl⟩ | ⟨-, heffect⟩
    · exact hkernel
    · exact s.enter_user _ _ _
    · exact (heffect.user_of_not_whole hi).trans hkernel
  exact Bool.noConfusion (same.symm.trans huser)

/-- Settles O18: bit by bit, from the lists of the writers. -/
theorem onlyTheListedInstructionsWriteFlags : Obligations.OnlyTheListedInstructionsWriteFlags := by
  intro i s t hexec
  have keeps := exec_keepsStatus hexec
  refine ⟨keeps 0 (by decide) (by decide), keeps 1 (by decide) (by decide), keeps 2 (by decide) (by decide),
    fun hi => ?_⟩
  have high {j : Nat} (hj : 4 < j) : t.sw.getLsbD j = s.sw.getLsbD j :=
    keeps j (by omega) (by omega) ((congrFun (writerOf_of_two_lt (by omega)) i).trans hi)
  exact ⟨high (by decide), irqMask_eq fun j hj => high (by omega)⟩

/-- Settles O19. -/
theorem onlyIoFormsReachTheIoBus : Obligations.OnlyIoFormsReachTheIoBus := by
  intro i s t hexec
  refine ⟨fun hi => ?other, fun hi hpass hkernel => ?io⟩
  case other =>
    rcases exec_cases hexec with rfl | ⟨n, rfl⟩ | ⟨-, heffect⟩
    · exact ⟨rfl, rfl, rfl, rfl⟩
    · exact s.enter_env _ _ _
    · exact heffect.sameEnv_of_not_io hi
  case io =>
    obtain ⟨e, heffect, h⟩ := exec_effect (not_isUnused_of_isIo hi) s
    rw [h, guarded_effect hpass fun hu => Bool.noConfusion (hkernel.symm.trans hu)] at hexec
    cases hexec
    exact heffect.oneAccess_of_io hi

end

section
/-! One step (spec/30_encoding.md R86): which instruction it runs, and which interrupt it enters. -/

namespace Sys2Proof.Machine

/-! ## The instruction at R7 -/

/-- Decoding the octets of two words gives what fetching them gives: with I = 0 the second word does not count. -/
theorem decode_fetched {iw next : Word} {i : Instr} {rest : List Byte}
    (h : decode (bytesOfWord iw ++ bytesOfWord next) = .ok (i, rest)) :
    i = decodeWords iw (if hasImmOf iw then next else 0) := by
  cases himm : hasImmOf iw with
  | false =>
    rw [decode_oneWord himm] at h
    cases h
    rfl
  | true =>
    rw [← List.append_nil (bytesOfWord next), decode_twoWords himm] at h
    cases h
    rfl

/-- The instruction has as many words as its instruction word says (R82). -/
theorem fetchLength_eq (s : State) (next : Word) :
    fetchLength s = BitVec.ofNat 16 (decodeWords (s.load s.pc) next).length := by
  rw [fetchLength, Instr.length, hasImm_decodeWords]
  cases hasImmOf (s.load s.pc) <;> rfl

/-- Fetching where the octets at R7 decode to an instruction gives it, and R7 past its words. -/
theorem fetch_of_decode {s : State} {i : Instr} {rest : List Byte}
    (h : decode (bytesOfWord (s.load s.pc) ++ bytesOfWord (s.load (s.pc + 1))) = .ok (i, rest)) :
    fetch s = (i, s.setPc (s.pc + BitVec.ofNat 16 i.length)) := by
  have hi : i = (fetch s).1 := (decode_fetched h).trans (fetch_instr s).symm
  have hlen : fetchLength s = BitVec.ofNat 16 i.length := by
    rw [decode_fetched h]
    exact fetchLength_eq s _
  rw [← hlen, ← fetch_state, hi]

/-- Where no interrupt is taken the step is the fetched instruction. -/
theorem step_of_sample_none {s s1 : State} (h : sampleInterrupt s = (none, s1)) :
    step s = exec (fetch s1).1 (fetch s1).2 := by
  rw [step, h]

/-- Sampling leaves R7 and memory, so the step reads its instruction where the state says. -/
theorem step_of_decode {s s1 : State} {i : Instr} {rest : List Byte} (h : sampleInterrupt s = (none, s1))
    (hd : decode (bytesOfWord (s.load s.pc) ++ bytesOfWord (s.load (s.pc + 1))) = .ok (i, rest)) :
    step s = exec i (s1.setPc (s.pc + BitVec.ofNat 16 i.length)) := by
  have hpc : s1.pc = s.pc := by
    have hr7 := sampleInterrupt_reg s .r7
    rwa [h] at hr7
  have hload (a : Word) : s1.load a = s.load a := by
    obtain ⟨-, -, hmem, -, -⟩ := sampleInterrupt_frame s
    rw [h] at hmem
    exact congrArg (·.readWord a) hmem
  rw [← hpc, ← hload, ← hload] at hd
  rw [step_of_sample_none h, fetch_of_decode hd, hpc]

/-- A word is not one past itself, modulo 65536. -/
theorem add_one_ne (a : Word) : a + 1 ≠ a := by bv_omega

/-! ## The interrupt (spec/60_exceptions.md R310 to R313) -/

/-- The environment after its levels have been taken: the script's next entry, or one free value more. -/
def afterSample (s : State) : State :=
  { s with
    irqScript := s.irqScript.tail
    draws := if s.irqScript = [] then s.draws + 1 else s.draws }

/-- With interrupts enabled, sampling selects among the asserted signals that are not masked. -/
theorem sampleInterrupt_enabled {s : State} (h : flagI s.sw = true) :
    sampleInterrupt s
      = selectIrq (s.irqScript.headD (Config.irqLevels s.draws) &&& irqMask s.sw) (afterSample s) := by
  rw [sampleInterrupt, if_pos h, State.takeLevels_eq]
  rfl

/-- With every asserted signal masked, the levels are taken and no interrupt is. -/
theorem sampleInterrupt_masked {s : State} (h : flagI s.sw = true)
    (hmasked : s.irqScript.headD (Config.irqLevels s.draws) &&& irqMask s.sw = 0) :
    sampleInterrupt s = (none, afterSample s) := by
  rw [sampleInterrupt_enabled h, hmasked]
  rfl

/-- Selecting takes nothing from the interrupt script. -/
theorem selectIrq_irqScript (p : BitVec 8) (s : State) : (selectIrq p s).2.irqScript = s.irqScript := by
  unfold selectIrq
  split <;> rfl

/-- A set that is not empty has a member selected. -/
theorem selectIrq_of_ne_zero {p : BitVec 8} (h : p ≠ 0) (s : State) :
    ∃ k s1, selectIrq p s = (some k, s1) ∧ p.getLsbD k.val = true := by
  rcases hsel : selectIrq p s with ⟨_ | k, s1⟩
  · obtain ⟨hempty, -⟩ := selectIrq_none hsel
    exact absurd (BitVec.eq_of_getLsbD_eq fun j hj => by simpa using hempty ⟨j, hj⟩) h
  · exact ⟨k, s1, rfl, selectIrq_mem hsel⟩

/-- The bits of the interrupt mask are SW[15:8] (R28). -/
theorem getLsbD_irqMask (sw : Word) (k : Fin 8) : (irqMask sw).getLsbD k.val = sw.getLsbD (8 + k.val) := by
  simp [irqMask]

/-- The only member of a set of one signal. -/
theorem eq_of_getLsbD_twoPow {j k : Fin 8} (h : (BitVec.ofNat 8 (2 ^ j.val)).getLsbD k.val = true) : k = j := by
  decide +revert

/-- What entry leaves speaks of registers, SW, memory and the bus alone. -/
theorem entered_congr {vec n : Word} {c : Bool} {s s' t : State} (hregs : s'.regs = s.regs) (hsw : s'.sw = s.sw)
    (hmem : s'.mem = s.mem) (htrace : s'.ioTrace = s.ioTrace) (h : entered vec n c s' t) : entered vec n c s t := by
  simpa only [entered, sameRegsExcept, sameSwExcept, sameMemExcept, State.reg, hregs, hsw, hmem, htrace] using h

/-! ## The placed word (log 5) -/

/-- The two words of an instruction stored at R7. -/
def placed (s : State) (nbits w : Nat) : State :=
  (s.store s.pc (tableWords nbits w).1).store (s.pc + 1) (tableWords nbits w).2

theorem placed_load (s : State) (nbits w : Nat) :
    (placed s nbits w).load s.pc = (tableWords nbits w).1
      ∧ (placed s nbits w).load (s.pc + 1) = (tableWords nbits w).2 := by
  constructor
  · rw [placed, State.load_store_ne _ (add_one_ne s.pc).symm, State.load_store_same]
  · rw [placed, State.load_store_same]

/-- The step that meets the placed word takes no interrupt: with interrupts enabled, the level that was put into the
script is taken out again. -/
theorem sampleInterrupt_withFetchWord (s : State) (nbits w : Nat) :
    sampleInterrupt (s.withFetchWord nbits w) = (none, placed s nbits w) := by
  cases hI : flagI s.sw with
  | false =>
    have hsame : s.withFetchWord nbits w = placed s nbits w := by
      simp only [State.withFetchWord, hI, Bool.false_eq_true, if_false]
      rfl
    rw [hsame]
    exact sampleInterrupt_disabled hI
  | true =>
    have hscript : (s.withFetchWord nbits w).irqScript = 0 :: s.irqScript := by
      simp only [State.withFetchWord, hI, if_true]
    rw [sampleInterrupt_masked (s := s.withFetchWord nbits w) hI (by rw [hscript]; exact BitVec.zero_and)]
    simp only [afterSample, hscript, List.tail_cons, reduceCtorEq, if_false]
    rfl

/-- What the table's words decode to, as a stream of octets. -/
theorem decode_of_decodeTableWord {nbits w : Nat} {i : Instr} (h : decodeTableWord nbits w = some i) :
    ∃ rest, decode (bytesOfWord (tableWords nbits w).1 ++ bytesOfWord (tableWords nbits w).2) = .ok (i, rest) := by
  simp only [decodeTableWord] at h
  split at h
  · next j rest hd =>
    cases h
    exact ⟨rest, hd⟩
  · cases h

end Sys2Proof.Machine

open Sys2Proof Sys2Proof.Machine

/-- Settles O5. -/
theorem stepRunsTheDecodedInstruction : Obligations.StepRunsTheDecodedInstruction :=
  fun _ _ _ _ => step_of_decode

/-- Settles O6: the next sample is no interrupt, and the placed words are the ones at R7. -/
theorem stepRunsThePlacedWord : Obligations.StepRunsThePlacedWord := by
  intro s nbits w i h
  obtain ⟨rest, hd⟩ := decode_of_decodeTableWord h
  obtain ⟨hfirst, hsecond⟩ := placed_load s nbits w
  exact step_of_decode (sampleInterrupt_withFetchWord s nbits w) (hfirst.symm ▸ hsecond.symm ▸ hd)

/-- Settles O20: sampling selects a member of the enabled asserted signals, and the step enters it. -/
theorem enabledInterruptIsTaken : Obligations.EnabledInterruptIsTaken := by
  rintro s levels hI rfl hsome
  obtain ⟨k, s1, hsel, hmem⟩ := selectIrq_of_ne_zero hsome (afterSample s)
  have hsample : sampleInterrupt s = (some k, s1) := (sampleInterrupt_enabled hI).trans hsel
  obtain ⟨hregs, hsw, hm, htrace, hio⟩ := sampleInterrupt_frame s
  rw [hsample] at hregs hsw hm htrace hio
  have hscript : s1.irqScript = s.irqScript.tail := by
    rw [← congrArg (fun p => p.2.irqScript) hsel]
    exact selectIrq_irqScript _ _
  have hboth := hmem
  rw [BitVec.getLsbD_and, getLsbD_irqMask, Bool.and_eq_true] at hboth
  obtain ⟨hlevel, hmask⟩ := hboth
  refine ⟨k, s1.enterInterrupt k, hlevel, hmask, ?step, ?entered, hscript, hio, fun j hj => ?only⟩
  case step => rw [step, hsample]
  case entered => exact entered_congr hregs hsw hm htrace (s1.enter_entered _ _ _)
  case only => exact eq_of_getLsbD_twoPow (hj ▸ hmem)

/-- Settles O21: with I = 0 nothing is sampled, and with an empty set nothing is selected. -/
theorem disabledOrMaskedInterruptIsNotTaken : Obligations.DisabledOrMaskedInterruptIsNotTaken := by
  exact ⟨fun _ => step_of_disabled, fun _ hI hmasked => step_of_sample_none (sampleInterrupt_masked hI hmasked)⟩

/-- Settles O54: fetching reads the memory that the store wrote, and the next word is another one. -/
theorem storeIsSeenByTheNextFetch : Obligations.StoreIsSeenByTheNextFetch := by
  intro m d r s hpass hu hd
  have hr6 : s.user = true → Reg.r6 ∉ [d, r] := fun huser h6 => by
    obtain ⟨hd6, hr6⟩ := hu huser
    simp [hd6.symm, hr6.symm] at h6
  refine ⟨s.store (s.reg .r7) (s.reg r), ?exec, ?fetched⟩
  case exec =>
    rw [← hd]
    exact guarded_namesR6_effect hpass hr6 _
  case fetched =>
    rw [fetch_instr, State.store_pc, State.pc_eq, State.load_store_same, State.load_store_ne _ (add_one_ne _)]
    cases himm : hasImmOf (s.reg r) with
    | true => rfl
    | false => exact decodeWords_of_oneWord himm _ _

/-- Settles O55: two words forward and two back. -/
theorem jumpToSelfNeverLeaves : Obligations.JumpToSelfNeverLeaves := by
  intro s hI hword himm
  have hfetch : fetch s = (.assImm .always .r7 .r0 0xFFFE, s.setPc (s.pc + 2)) :=
    fetch_of_decode (rest := []) (by rw [hword, himm]; rfl)
  have hback : s.pc + 2 + 0xFFFE = s.pc := by bv_omega
  have heffect : (s.setPc (s.pc + 2)).setReg .r7 (s.pc + 2 + 0xFFFE) = s := by
    rw [hback, State.setPc_eq, State.setReg_setReg, State.setReg, State.pc, State.reg, RegFile.set_get]
  calc step s = exec (.assImm .always .r7 .r0 0xFFFE) (s.setPc (s.pc + 2)) := by rw [step_of_disabled hI, hfetch]
    _ = .next ((s.setPc (s.pc + 2)).setReg .r7 (s.pc + 2 + 0xFFFE)) :=
        guarded_namesR6_effect (m := .always) (rs := [.r7]) rfl (fun _ => by decide) _
    _ = .next s := congrArg _ heffect

end

section
/-! Unused fields (spec/30_encoding.md R94): the meaning of a form does not look at a field that its row of R93 leaves
unused. -/

namespace Sys2Proof.Machine

/-- A form with two register fields does the same on every state when its used fields are the same. -/
def IgnoresUnused (f : Reg → Reg → Instr) : Prop :=
  ∀ d r d' r' s, ((fieldUse (f d r)).1 ≠ .unused → d = d') → ((fieldUse (f d r)).2 ≠ .unused → r = r') →
    exec (f d r) s = exec (f d' r') s

/-- It is enough that a field marked unused in the form's row can be changed. -/
theorem ignoresUnused_of_row {f : Reg → Reg → Instr} {u v : FieldUse} (huse : ∀ d r, fieldUse (f d r) = (u, v))
    (hd : u = .unused → ∀ d d' r s, exec (f d r) s = exec (f d' r) s)
    (hr : v = .unused → ∀ d r r' s, exec (f d r) s = exec (f d r') s) : IgnoresUnused f := by
  intro d r d' r' s hdst hsrc
  rw [huse] at hdst hsrc
  have first : exec (f d r) s = exec (f d' r) s := by
    by_cases h : u = .unused
    · exact hd h d d' r s
    · rw [hdst h]
  have second : exec (f d' r) s = exec (f d' r') s := by
    by_cases h : v = .unused
    · exact hr h d' r r' s
    · rw [hsrc h]
  exact first.trans second

/-- Both forms of a row ignore their unused fields. -/
def RowIgnoresUnused (row : OpcodeRow) : Prop :=
  (∀ m d r d' r' s, ((fieldUse (row.1 m d r)).1 ≠ .unused → d = d') → ((fieldUse (row.1 m d r)).2 ≠ .unused → r = r') →
      exec (row.1 m d r) s = exec (row.1 m d' r') s)
    ∧ ∀ m d r d' r' imm s, ((fieldUse (row.2 m d r imm)).1 ≠ .unused → d = d') →
        ((fieldUse (row.2 m d r imm)).2 ≠ .unused → r = r') → exec (row.2 m d r imm) s = exec (row.2 m d' r' imm) s

theorem registerRow_ignoresUnused {f : CondMode → Reg → Reg → Instr} {g : CondMode → Reg → Reg → Word → Instr}
    (hf : ∀ m, IgnoresUnused (f m)) (hg : ∀ m imm, IgnoresUnused fun d r => g m d r imm) :
    RowIgnoresUnused (oneWord f, twoWord g) :=
  ⟨fun m _ _ _ _ s hd hr => hf m _ _ _ _ s (fun h => congrArg _ (hd h)) fun h => congrArg _ (hr h),
    fun m _ _ _ _ imm s hd hr => hg m imm _ _ _ _ s (fun h => congrArg _ (hd h)) fun h => congrArg _ (hr h)⟩

/-- SFL uses its flag index and not its src field; the pair beside it uses neither. -/
theorem flagRow_ignoresUnused : RowIgnoresUnused (flagForm .sfl, twoWord .illegal20Imm) := by
  refine ⟨fun m d r d' r' s hd _ => ?_, fun _ _ _ _ _ _ _ _ _ => rfl⟩
  rw [hd nofun]
  rfl

/-- Every row but SFL's has register fields, and for each of its two forms a field is used or can be changed. -/
theorem rowOf_ignoresUnused (op : BitVec 6) : RowIgnoresUnused (rowOf op) := by
  obtain ⟨n, hn⟩ := op
  rcases lt_trichotomy n 32 with below | rfl | above
  case inr.inl => exact flagRow_ignoresUnused
  all_goals
    interval_cases n <;>
      refine registerRow_ignoresUnused (fun m => ignoresUnused_of_row (fun _ _ => rfl) ?_ ?_)
        (fun m imm => ignoresUnused_of_row (fun _ _ => rfl) ?_ ?_) <;> first
      | exact fun h => absurd h (by decide)
      | exact fun _ _ _ _ _ => rfl

/-- The same for two sets of fields of one form. -/
theorem instrOf_ignoresUnused (op : BitVec 6) (hasImm : Bool) (m : CondMode) (d r d' r' : BitVec 3) (imm : Word)
    (s : State) (hd : (fieldUse (instrOf ⟨op, hasImm, m, d, r, imm⟩)).1 ≠ .unused → d = d')
    (hr : (fieldUse (instrOf ⟨op, hasImm, m, d, r, imm⟩)).2 ≠ .unused → r = r') :
    exec (instrOf ⟨op, hasImm, m, d, r, imm⟩) s = exec (instrOf ⟨op, hasImm, m, d', r', imm⟩) s := by
  obtain ⟨hword, himm⟩ := rowOf_ignoresUnused op
  cases hasImm with
  | false => exact hword m d r d' r' s hd hr
  | true => exact himm m d r d' r' imm s hd hr

end Sys2Proof.Machine

open Sys2Proof Sys2Proof.Machine

/-- Settles O13: both instructions are the instruction of their fields, and the row of R93 says which of these count. -/
theorem unusedFieldsAreIgnored : Obligations.UnusedFieldsAreIgnored := by
  intro i j s hop hI hm himm hd hr
  rw [← instrOf_fieldsOf i, ← instrOf_fieldsOf j]
  rw [← instrOf_fieldsOf i] at hd hr
  rw [fieldsOf_instrOf (immOf_oneWord (i := i))] at hd hr
  have hj : fieldsOf j = ⟨(fieldsOf i).op, (fieldsOf i).hasImm, (fieldsOf i).mode, (fieldsOf j).dst, (fieldsOf j).src,
      (fieldsOf i).imm⟩ := by rw [hop, hI, hm, himm]
  rw [hj]
  exact instrOf_ignoresUnused _ _ _ _ _ _ _ _ s hd hr

end

section
/-! The rule of one form: its words, Trap(1), its effect. Each rule follows from the fields of the form, its call of
`guarded`, and one fact about its effect. -/

namespace Sys2Proof.Machine

/-! ## The words -/

/-- What op and I contribute to the instruction word (R81). -/
def opcodeBits (op : BitVec 6) (hasImm : Bool) : Word :=
  op.setWidth 16 <<< 10 ||| (BitVec.ofBool hasImm).setWidth 16 <<< 9

/-- The instruction word is the opcode's bits with M, dst and src. -/
theorem encodeWord_eq_wordOf {i : Instr} {op : BitVec 6} {I : Bool} {m : CondMode} {d r : BitVec 3} {imm : Word}
    (h : fieldsOf i = ⟨op, I, m, d, r, imm⟩) : encodeWord i = wordOf (opcodeBits op I) m d r := by
  rw [encodeWord, h]
  rfl

theorem encode_oneWord {i : Instr} {op : BitVec 6} {m : CondMode} {d r : BitVec 3} {base : Word}
    (h : fieldsOf i = ⟨op, false, m, d, r, 0⟩) (hbase : opcodeBits op false = base) :
    encode i = [wordOf base m d r] := by
  rw [← hbase, ← encodeWord_eq_wordOf h, encode, h]
  rfl

theorem encode_twoWords {i : Instr} {op : BitVec 6} {m : CondMode} {d r : BitVec 3} {imm base : Word}
    (h : fieldsOf i = ⟨op, true, m, d, r, imm⟩) (hbase : opcodeBits op true = base) :
    encode i = [wordOf base m d r, imm] := by
  rw [← hbase, ← encodeWord_eq_wordOf h, encode, immOf, h]
  rfl

/-! ## The checks -/

/-- A form behind a check that finds it privileged takes Trap(1) in user mode. -/
theorem trapsInUserMode_of_guarded {i : Instr} {p : Bool} {effect : State → State}
    (hexec : ∀ s, exec i s = guarded i.mode p s (effect s)) (hp : p = true) : trapsInUserMode i 1 := by
  intro s hpass hu
  subst hp
  exact ⟨_, (hexec s).trans (guarded_trap hpass hu _), s.raiseTrap_entered 1⟩

/-- A form behind the check of its used registers: Trap(1) where one of them is R6, and its effect elsewhere. -/
theorem formRule_of_guarded {i : Instr} {words : List Word} {used : List Reg} {P : State → State → Prop}
    {effect : State → State} (hwords : encode i = words)
    (hexec : ∀ s, exec i s = guarded i.mode (namesR6 used) s (effect s)) (heffect : ∀ s, P s (effect s)) :
    formRule i words used P :=
  ⟨hwords, fun h6 => trapsInUserMode_of_guarded hexec ((namesR6_iff used).mpr h6),
    fun s hpass hu => ⟨_, (hexec s).trans (guarded_namesR6_effect hpass hu _), heffect s⟩⟩

/-- The rule of a one-word form. -/
theorem formRule_oneWord {i : Instr} {op : BitVec 6} {m : CondMode} {d r : BitVec 3} {base : Word} {used : List Reg}
    {P : State → State → Prop} {effect : State → State} (h : fieldsOf i = ⟨op, false, m, d, r, 0⟩)
    (hbase : opcodeBits op false = base) (hexec : ∀ s, exec i s = guarded i.mode (namesR6 used) s (effect s))
    (heffect : ∀ s, P s (effect s)) : formRule i [wordOf base m d r] used P :=
  formRule_of_guarded (encode_oneWord h hbase) hexec heffect

/-- The rule of a two-word form. -/
theorem formRule_twoWords {i : Instr} {op : BitVec 6} {m : CondMode} {d r : BitVec 3} {imm base : Word}
    {used : List Reg} {P : State → State → Prop} {effect : State → State} (h : fieldsOf i = ⟨op, true, m, d, r, imm⟩)
    (hbase : opcodeBits op true = base) (hexec : ∀ s, exec i s = guarded i.mode (namesR6 used) s (effect s))
    (heffect : ∀ s, P s (effect s)) : formRule i [wordOf base m d r, imm] used P :=
  formRule_of_guarded (encode_twoWords h hbase) hexec heffect

/-- A form that is privileged in itself: Trap(1) in user mode and its effect in kernel mode. -/
theorem ioRule_of_guarded {i : Instr} {words : List Word} {P : State → State → Prop} {effect : State → State}
    (hwords : encode i = words) (hexec : ∀ s, exec i s = guarded i.mode true s (effect s))
    (heffect : ∀ s, P s (effect s)) : ioRule i words P :=
  ⟨hwords, trapsInUserMode_of_guarded hexec rfl, fun s hpass hkernel =>
    ⟨_, (hexec s).trans (guarded_effect hpass (fun hu => Bool.noConfusion (hkernel.symm.trans hu)) _), heffect s⟩⟩

/-! ## Effects with a stated value -/

/-- A register write with another expression for its value. -/
theorem State.setReg_valueOnly_of_eq {v w : Word} (h : v = w) (d : Reg) (s : State) : valueOnly d w s (s.setReg d v) :=
  h ▸ s.setReg_valueOnly d v

/-- A result with flags, with another expression for the result and its carry. -/
theorem State.setRegCZS_resultCZS_of_eq {rc : Word × Bool} {v : Word} {c : Bool} (h : rc = (v, c)) (d : Reg)
    (s : State) : resultCZS d v c s (s.setRegCZS d rc) := by
  subst h
  exact s.setRegCZS_resultCZS d (v, c)

/-- A result with Z and S, with another expression for the result. -/
theorem State.setRegZS_resultZS_of_eq {v w : Word} (h : v = w) (d : Reg) (s : State) :
    resultZS d w s (s.setRegZS d v) :=
  h ▸ s.setRegZS_resultZS d v

end Sys2Proof.Machine
end

section
/-! The data moves (spec/40_mov.md). -/

namespace Sys2Proof.Machine

/-! ## Addresses and bytes -/

/-- The sum of R51, modulo 65536. -/
theorem add_eq_ofNat (a b : Word) : a + b = BitVec.ofNat 16 (a.toNat + b.toNat) := by bv_omega

/-- MVL gives bits 7:0 (R126). -/
theorem wordOfBytes_zero_lowByte (w : Word) : wordOfBytes 0 (lowByte w) = BitVec.ofNat 16 (w.toNat % 256) := by
  apply BitVec.eq_of_toNat_eq
  simp [wordOfBytes, lowByte]

/-- MVH gives bits 15:8 (R127). -/
theorem wordOfBytes_zero_highByte (w : Word) : wordOfBytes 0 (highByte w) = BitVec.ofNat 16 (w.toNat / 256) := by
  have hshift : wordOfBytes 0 (highByte w) = w >>> 8 := by
    unfold wordOfBytes highByte
    ext i hi
    interval_cases i <;> simp
  rw [hshift]
  bv_omega

/-- MKW moves bits 7:0 to bits 15:8 (R131). -/
theorem wordOfBytes_lowByte_zero (w : Word) : wordOfBytes (lowByte w) 0 = (w &&& 0x00FF) <<< 8 := by
  unfold wordOfBytes lowByte
  ext i hi
  interval_cases i <;> simp

/-! ## The auto-modify forms (spec/20_memory.md R60) -/

/-- The loaded word and the modified pointer: the destination is written last, so it wins in one register. -/
theorem State.setReg_setReg_effect (s : State) (d r : Reg) (v a : Word) :
    ((s.setReg r a).setReg d v).reg d = v ∧ (r ≠ d → ((s.setReg r a).setReg d v).reg r = a)
      ∧ changesOnly [d, r] [] [] s ((s.setReg r a).setReg d v) := by
  refine ⟨by simp, fun h => by simp [h], fun x hx => ?_, fun _ _ => rfl, fun _ _ => rfl, rfl, rfl, rfl, rfl⟩
  obtain ⟨hd, hr⟩ : x ≠ d ∧ x ≠ r := by simpa using hx
  simp [hd, hr]

/-- The stored word and the modified pointer. -/
theorem State.store_setReg_effect (s : State) (d : Reg) (a v w : Word) :
    ((s.store a v).setReg d w).load a = v ∧ ((s.store a v).setReg d w).reg d = w
      ∧ changesOnly [d] [] [a] s ((s.store a v).setReg d w) := by
  refine ⟨by simp, by simp, fun x hx => ?_, fun _ _ => rfl, sameMemExcept_writeWord _ _ _ _ rfl, rfl, rfl, rfl, rfl⟩
  have hd : x ≠ d := by simpa using hx
  simp [hd]

end Sys2Proof.Machine

open Sys2Proof Sys2Proof.Machine

/-- Settles O27. -/
theorem registerAndImmediateMoves : Obligations.RegisterAndImmediateMoves := by
  intro m d r imm
  exact ⟨formRule_oneWord rfl (by decide) (fun _ => rfl) fun s => s.setReg_valueOnly d _,
    formRule_twoWords rfl (by decide) (fun _ => rfl) fun s => s.setReg_valueOnly d imm⟩

/-- Settles O28. -/
theorem registerLoads : Obligations.RegisterLoads := by
  intro m d r imm
  refine ⟨formRule_oneWord rfl (by decide) (fun _ => rfl) fun s => s.setReg_valueOnly d _,
    formRule_twoWords rfl (by decide) (fun _ => rfl) fun s => s.setReg_valueOnly d _,
    formRule_twoWords rfl (by decide) (fun _ => rfl) fun s => s.setReg_valueOnly_of_eq ?_ d⟩
  rw [State.loadDisp_eq, add_eq_ofNat]

/-- Settles O29. -/
theorem memoryStores : Obligations.MemoryStores := by
  intro m d r imm
  exact ⟨formRule_oneWord rfl (by decide) (fun _ => rfl) fun s => s.store_storeOnly _ _,
    formRule_twoWords rfl (by decide) (fun _ => rfl) fun s => s.store_storeOnly _ _,
    formRule_twoWords rfl (by decide) (fun _ => rfl) fun s => s.store_storeOnly _ _,
    formRule_twoWords rfl (by decide) (fun _ => rfl) fun s => s.store_storeOnly _ _⟩

/-- Settles O30: the word stored is loaded from the state before the store. -/
theorem memoryToMemoryMoves : Obligations.MemoryToMemoryMoves := by
  intro m d r imm
  exact ⟨formRule_oneWord rfl (by decide) (fun _ => rfl) fun s => s.store_storeOnly _ _,
    formRule_twoWords rfl (by decide) (fun _ => rfl) fun s => s.store_storeOnly _ _,
    formRule_twoWords rfl (by decide) (fun _ => rfl) fun s => s.store_storeOnly _ _,
    formRule_twoWords rfl (by decide) (fun _ => rfl) fun s => s.store_storeOnly _ _,
    formRule_twoWords rfl (by decide) (fun _ => rfl) fun s => s.store_storeOnly _ _⟩

/-- Settles O31. -/
theorem postIncrementMoves : Obligations.PostIncrementMoves := by
  intro m d r
  exact ⟨formRule_oneWord rfl (by decide) (fun _ => rfl) fun s => s.setReg_setReg_effect d r _ _,
    formRule_oneWord rfl (by decide) (fun _ => rfl) fun s => s.store_setReg_effect d _ _ _⟩

/-- Settles O32. -/
theorem byteMoves : Obligations.ByteMoves := by
  intro m d r
  refine ⟨formRule_oneWord rfl (by decide) (fun _ => rfl) fun s => s.setReg_valueOnly_of_eq ?_ d,
    formRule_oneWord rfl (by decide) (fun _ => rfl) fun s => s.setReg_valueOnly_of_eq ?_ d,
    formRule_oneWord rfl (by decide) (fun _ => rfl) fun s => s.setReg_valueOnly d 0x0000,
    formRule_oneWord rfl (by decide) (fun _ => rfl) fun s => s.setReg_valueOnly_of_eq ?_ d⟩
  · exact wordOfBytes_zero_lowByte _
  · exact wordOfBytes_zero_highByte _
  · rw [wordOfBytes_lowByte_zero]

end

section
/-! The status word moves and the stack moves (spec/41_status_and_stack_moves.md). -/

namespace Sys2Proof.Machine

/-- A write of SW as a whole takes the bits that the mode allows (R33). -/
theorem State.setSw_swWritten (s : State) (v : Word) : swWritten v s (s.setSw (writeSw s.sw v)) := by
  intro j hj
  rw [State.setSw_sw, getLsbD_writeSw _ _ hj]
  change _ = if flagU s.sw = true then _ else _
  by_cases h : j = 6 ∨ j = 7
  · have hout : decide (j ≠ 6 ∧ j ≠ 7) = false := decide_eq_false (by omega)
    rw [if_pos h, hout, Bool.and_false]
  · have hin : decide (j ≠ 6 ∧ j ≠ 7) = true := decide_eq_true (by omega)
    rw [if_neg h, hin, Bool.and_true]

/-- A write of SW alone changes SW alone. -/
theorem State.setSw_frame {s : State} {bits : List Nat} {w : Word} (h : sameSwExcept bits s (s.setSw w)) :
    changesOnly [] bits [] s (s.setSw w) :=
  ⟨fun _ _ => rfl, h, fun _ _ => rfl, rfl, rfl, rfl, rfl⟩

end Sys2Proof.Machine

open Sys2Proof Sys2Proof.Machine

/-- Settles O33. -/
theorem statusWordReads : Obligations.StatusWordReads := by
  intro m d r imm
  exact ⟨formRule_oneWord rfl (by decide) (fun _ => rfl) fun s => s.setReg_valueOnly d s.sw,
    formRule_twoWords rfl (by decide) (fun _ => rfl) fun s => s.store_storeOnly imm s.sw⟩

/-- Settles O34: the popped word is written to SW after the increment of the pointer. -/
theorem statusWordWrites : Obligations.StatusWordWrites := by
  intro m d r imm
  refine ⟨formRule_oneWord rfl (by decide) (fun _ => rfl) fun s => ?_,
    formRule_twoWords rfl (by decide) (fun _ => rfl) fun s => ?_,
    formRule_oneWord rfl (by decide) (fun _ => rfl) fun s => ?popped⟩
  · exact ⟨s.setSw_swWritten _, State.setSw_frame (sameSwExcept_all _ _)⟩
  · exact ⟨s.setSw_swWritten _, State.setSw_frame (sameSwExcept_all _ _)⟩
  case popped =>
    obtain ⟨hreg, hregs, -, hmem, henv⟩ := s.setReg_valueOnly r (s.reg r + 1)
    exact ⟨s.setSw_swWritten _, hreg, hregs, sameSwExcept_all _ _, hmem, henv⟩

/-- Settles O35. -/
theorem postDecrementStores : Obligations.PostDecrementStores := by
  intro m d r imm
  exact ⟨formRule_oneWord rfl (by decide) (fun _ => rfl) fun s => s.store_setReg_effect d _ _ _,
    formRule_twoWords rfl (by decide) (fun _ => rfl) fun s => s.store_setReg_effect d _ _ _,
    formRule_oneWord rfl (by decide) (fun _ => rfl) fun s => s.store_setReg_effect d _ _ _⟩

/-- Settles O36. -/
theorem preIncrementLoad : Obligations.PreIncrementLoad := by
  intro m d r
  exact formRule_oneWord rfl (by decide) (fun _ => rfl) fun s => s.setReg_setReg_effect d r _ _

end

section
/-! Arithmetic (spec/42_arithmetic.md): each use of the one adder of R160 as the sum or difference it stands for, with
its carry; then the double-word sequences. -/

namespace Sys2Proof.Machine

/-! ## The adder, use by use -/

/-- ADD (R162). -/
theorem adder_noCarry (a b : Word) : adder a b false = (a + b, decide (65536 ≤ a.toNat + b.toNat)) := by
  simp [adder, add_eq_ofNat]

/-- SUB and CMP, and SBC with no borrow pending: the carry says that there is no borrow (R161, R168). -/
theorem adder_not_carry (a b : Word) : adder a (~~~ b) true = (a - b, decide (b.toNat ≤ a.toNat)) := by
  simp only [adder, Prod.mk.injEq, decide_eq_decide]
  constructor <;> bv_omega

/-- SBC with a borrow pending (R169). -/
theorem adder_not_noCarry (a b : Word) : adder a (~~~ b) false = (a - b - 1, decide (b.toNat < a.toNat)) := by
  simp only [adder, Prod.mk.injEq, decide_eq_decide]
  constructor <;> bv_omega

/-- INC overflows from the highest word only (R170). -/
theorem adder_increment (a : Word) : adder a 0x0001 false = (a + 1, decide (a = 0xFFFF)) := by
  rw [adder_noCarry, Prod.mk.injEq, decide_eq_decide]
  exact ⟨rfl, by bv_omega⟩

/-- DEC overflows from every word but 0 (R171). -/
theorem adder_decrement (a : Word) : adder a 0xFFFF false = (a - 1, decide (a ≠ 0)) := by
  rw [adder_noCarry, Prod.mk.injEq, decide_eq_decide]
  constructor <;> bv_omega

/-- NEG overflows from 0 only (R186). -/
theorem adder_negate (a : Word) : adder (~~~ a) 0x0000 true = (0 - a, decide (a = 0)) := by
  simp only [adder, Prod.mk.injEq, decide_eq_decide]
  constructor <;> bv_omega

/-! ## Double words -/

/-- What an instruction with a result and flags leaves for the next one, which starts from the same state but for R7. -/
theorem setRegCZS_sameButPc {s u : State} {d : Reg} {rc : Word × Bool} (h : sameButPc (s.setRegCZS d rc) u) :
    flagC u.sw = rc.2 ∧ u.user = s.user ∧ ∀ r, r ≠ .r7 → u.reg r = if r = d then rc.1 else s.reg r := by
  obtain ⟨hregs, hsw, -⟩ := h
  refine ⟨?_, ?_, fun r hr => ?_⟩
  · rw [hsw, State.setRegCZS_sw, flagC_setCZS]
  · rw [State.user, hsw, State.setRegCZS_sw, flagU_setCZS, State.user]
  · rw [hregs r hr, State.setRegCZS_reg]

/-- Two instructions with results through the adder, the second with the carry of the first: the low register keeps the
first sum, and the high one and C make the second. `op` is what both do to their second operand. -/
theorem doubleWord_sums {i j : Instr} {l h y z : Reg} {s : State} {c : Bool} (op : Word → Word)
    (hi : ∀ s, exec i s = guarded .always (namesR6 [l, y]) s (s.setRegCZS l (adder (s.reg l) (op (s.reg y)) c)))
    (hj : ∀ s, exec j s
      = guarded .always (namesR6 [h, z]) s (s.setRegCZS h (adder (s.reg h) (op (s.reg z)) (flagC s.sw))))
    (hl : l ≠ .r7) (hh : h ≠ .r7) (hz : z ≠ .r7) (hlh : l ≠ h) (hzl : z ≠ l)
    (hr6 : s.user = true → Reg.r6 ∉ [l, h, y, z]) :
    ∃ t, exec i s = .next t ∧ ∀ u, sameButPc t u → ∃ v, exec j u = .next v ∧ ∃ carry : Bool,
      (v.reg l).toNat + 65536 * carry.toNat = (s.reg l).toNat + (op (s.reg y)).toNat + c.toNat
        ∧ (v.reg h).toNat + 65536 * (flagC v.sw).toNat = (s.reg h).toNat + (op (s.reg z)).toNat + carry.toNat := by
  have hlow : s.user = true → Reg.r6 ∉ [l, y] := fun hu h6 => hr6 hu ((by simp : [l, y] ⊆ [l, h, y, z]) h6)
  have hhigh : s.user = true → Reg.r6 ∉ [h, z] := fun hu h6 => hr6 hu ((by simp : [h, z] ⊆ [l, h, y, z]) h6)
  refine ⟨_, (hi s).trans (guarded_namesR6_effect rfl hlow _), fun u hu => ?_⟩
  obtain ⟨hC, huser, hregs⟩ := setRegCZS_sameButPc hu
  refine ⟨_, (hj u).trans (guarded_namesR6_effect rfl (huser ▸ hhigh) _),
    (adder (s.reg l) (op (s.reg y)) c).2, ?low, ?high⟩
  case low =>
    rw [State.setRegCZS_reg, if_neg hlh, hregs l hl, if_pos rfl]
    exact adder_spec _ _ _
  case high =>
    rw [State.setRegCZS_reg, if_pos rfl, State.setRegCZS_sw, flagC_setCZS, hregs h hh, if_neg hlh.symm, hregs z hz,
      if_neg hzl, hC]
    exact adder_spec _ _ _

/-- The complement of a word as a number. -/
theorem toNat_not_add (a : Word) : (~~~ a).toNat + a.toNat = 65535 := by bv_omega

/-- The negation of a flag as a number. -/
theorem toNat_bnot_add (b : Bool) : (!b).toNat + b.toNat = 1 := by
  cases b <;> rfl

end Sys2Proof.Machine

open Sys2Proof Sys2Proof.Machine

/-- Settles O37. -/
theorem additions : Obligations.Additions := by
  intro m d r imm
  exact ⟨formRule_oneWord rfl (by decide) (fun _ => rfl) fun s => s.setRegCZS_resultCZS_of_eq (adder_noCarry _ _) d,
    formRule_twoWords rfl (by decide) (fun _ => rfl) fun s => s.setRegCZS_resultCZS_of_eq (adder_noCarry _ _) d,
    formRule_oneWord rfl (by decide) (fun _ => rfl) fun s => s.setRegCZS_resultCZS d _,
    formRule_twoWords rfl (by decide) (fun _ => rfl) fun s => s.setRegCZS_resultCZS d _,
    formRule_oneWord rfl (by decide) (fun _ => rfl) fun s => s.setReg_valueOnly d _,
    formRule_twoWords rfl (by decide) (fun _ => rfl) fun s => s.setReg_valueOnly d _⟩

/-- Settles O38: SBC by the incoming carry. -/
theorem subtractions : Obligations.Subtractions := by
  intro m d r
  refine ⟨formRule_oneWord rfl (by decide) (fun _ => rfl) fun s => s.setRegCZS_resultCZS_of_eq (adder_not_carry _ _) d,
    formRule_oneWord rfl (by decide) (fun _ => rfl) fun s => ?borrow⟩
  case borrow =>
    cases flagC s.sw with
    | true => exact s.setRegCZS_resultCZS_of_eq (adder_not_carry _ _) d
    | false => exact s.setRegCZS_resultCZS_of_eq (adder_not_noCarry _ _) d

/-- Settles O39. -/
theorem incrementAndDecrement : Obligations.IncrementAndDecrement := by
  intro m d r
  exact ⟨formRule_oneWord rfl (by decide) (fun _ => rfl) fun s => s.setRegCZS_resultCZS_of_eq (adder_increment _) d,
    formRule_oneWord rfl (by decide) (fun _ => rfl) fun s => s.setRegCZS_resultCZS_of_eq (adder_decrement _) d⟩

/-- Settles O40: the carry of the low sum enters the high one. -/
theorem doubleWordAddition : Obligations.DoubleWordAddition := by
  intro l h y z s hl hh _ hz hlh hzl hr6
  obtain ⟨t, ht, second⟩ := doubleWord_sums (i := .addReg .always l y) (j := .adcReg .always h z) (c := false) id
    (fun _ => rfl) (fun _ => rfl) hl hh hz hlh hzl hr6
  refine ⟨t, ht, fun u hu => ?_⟩
  obtain ⟨v, hv, carry, hlo, hhi⟩ := second u hu
  refine ⟨v, hv, ?_⟩
  simp only [id_eq, Bool.toNat_false] at hlo hhi
  omega

/-- Settles O41: the same two sums with the complement of each subtrahend, and 1 carried in. -/
theorem doubleWordSubtraction : Obligations.DoubleWordSubtraction := by
  intro l h y z s hl hh _ hz hlh hzl hr6
  obtain ⟨t, ht, second⟩ := doubleWord_sums (i := .subReg .always l y) (j := .sbcReg .always h z) (c := true)
    (fun w => ~~~ w) (fun _ => rfl) (fun _ => rfl) hl hh hz hlh hzl hr6
  refine ⟨t, ht, fun u hu => ?_⟩
  obtain ⟨v, hv, carry, hlo, hhi⟩ := second u hu
  refine ⟨v, hv, ?_⟩
  have hcomplY := toNat_not_add (s.reg y)
  have hcomplZ := toNat_not_add (s.reg z)
  have hborrow := toNat_bnot_add (flagC v.sw)
  simp only [Bool.toNat_true] at hlo hhi
  omega

end

section
/-! Shifts, rotates and logic (spec/43_shift_logic.md). -/

namespace Sys2Proof.Machine

/-! ## Shifts and rotates as arithmetic -/

/-- The sign bit says whether the word is 32768 or more. -/
theorem getLsbD_15 (v : Word) : v.getLsbD 15 = decide (32768 ≤ v.toNat) := by
  rw [← BitVec.msb_eq_getLsbD_last (x := v), BitVec.msb_eq_decide]

/-- The lowest bit says whether the word is odd. -/
theorem getLsbD_0 (v : Word) : v.getLsbD 0 = decide (v.toNat % 2 = 1) := by
  rw [BitVec.getLsbD, Nat.testBit_zero]

/-- SHL doubles modulo 65536 (R181). -/
theorem shiftLeft1_eq (v : Word) : shiftLeft1 v = (BitVec.ofNat 16 (2 * v.toNat), decide (32768 ≤ v.toNat)) := by
  rw [shiftLeft1, getLsbD_15, Prod.mk.injEq]
  exact ⟨by bv_omega, rfl⟩

/-- SHR halves (R183). -/
theorem shiftRight1_eq (v : Word) : shiftRight1 v = (BitVec.ofNat 16 (v.toNat / 2), decide (v.toNat % 2 = 1)) := by
  rw [shiftRight1, getLsbD_0, Prod.mk.injEq]
  exact ⟨by bv_omega, rfl⟩

/-- ROL doubles and adds the old carry, which enters a bit that the shift has cleared (R182). -/
theorem rotateLeft1_eq (v : Word) (c : Bool) :
    rotateLeft1 v c = (BitVec.ofNat 16 (2 * v.toNat + c.toNat), decide (32768 ≤ v.toNat)) := by
  rw [rotateLeft1, getLsbD_15, Prod.mk.injEq]
  refine ⟨?_, rfl⟩
  have hdisjoint : v <<< 1 &&& (BitVec.ofBool c).setWidth 16 = 0 := by
    ext i hi
    cases i <;> simp
  have hcarry : ((BitVec.ofBool c).setWidth 16 : Word).toNat = c.toNat := by
    cases c <;> rfl
  rw [← BitVec.add_eq_or_of_and_eq_zero _ _ hdisjoint]
  bv_omega

/-- ROR halves and adds the old carry as bit 15, which the shift has cleared (R184). -/
theorem rotateRight1_eq (v : Word) (c : Bool) :
    rotateRight1 v c = (BitVec.ofNat 16 (v.toNat / 2 + 32768 * c.toNat), decide (v.toNat % 2 = 1)) := by
  rw [rotateRight1, getLsbD_0, Prod.mk.injEq]
  refine ⟨?_, rfl⟩
  have hdisjoint : v >>> 1 &&& (BitVec.ofBool c).setWidth 16 <<< 15 = 0 := by
    ext i hi
    interval_cases i <;> simp
  have hcarry : ((BitVec.ofBool c).setWidth 16 <<< 15 : Word).toNat = 32768 * c.toNat := by
    cases c <;> rfl
  rw [← BitVec.add_eq_or_of_and_eq_zero _ _ hdisjoint]
  bv_omega

/-- The complement as arithmetic (R185). -/
theorem not_eq_ofNat (v : Word) : ~~~ v = BitVec.ofNat 16 (65535 - v.toNat) := by bv_omega

/-! ## A rotation of 17 bits (R180) -/

/-- The 17 bits that a rotation moves: those of the word, and the carry above them. -/
def carryBit (p : Word × Bool) (k : Fin 17) : Bool := if k.val < 16 then p.1.getLsbD k.val else p.2

theorem ext_carryBit {p q : Word × Bool} (h : ∀ k, carryBit p k = carryBit q k) : p = q := by
  refine Prod.ext (BitVec.eq_of_getLsbD_eq fun i hi => ?_) (h 16)
  have hbit := h ⟨i, by omega⟩
  simpa only [carryBit, if_pos hi] using hbit

/-- ROL moves every bit one up, the carry to the bottom. -/
theorem carryBit_rotateLeft1 (p : Word × Bool) (k : Fin 17) :
    carryBit (rotateLeft1 p.1 p.2) (k + 1) = carryBit p k := by
  fin_cases k <;> simp [carryBit, rotateLeft1]

/-- ROR moves every bit one down, the lowest to the carry. -/
theorem carryBit_rotateRight1 (p : Word × Bool) (k : Fin 17) :
    carryBit (rotateRight1 p.1 p.2) k = carryBit p (k + 1) := by
  fin_cases k <;> simp [carryBit, rotateRight1]

theorem carryBit_rotateLeft1_iterate (p : Word × Bool) (n : Nat) (k : Fin 17) :
    carryBit ((fun p : Word × Bool => rotateLeft1 p.1 p.2)^[n] p) (k + n • 1) = carryBit p k := by
  induction n with
  | zero => simp
  | succ n ih => rw [Function.iterate_succ_apply', succ_nsmul, ← add_assoc, carryBit_rotateLeft1, ih]

/-- ROR undoes ROL. -/
theorem rotateRight1_rotateLeft1 (p : Word × Bool) :
    rotateRight1 (rotateLeft1 p.1 p.2).1 (rotateLeft1 p.1 p.2).2 = p :=
  ext_carryBit fun k => (carryBit_rotateRight1 _ k).trans (carryBit_rotateLeft1 p k)

/-- ROL undoes ROR. -/
theorem rotateLeft1_rotateRight1 (p : Word × Bool) :
    rotateLeft1 (rotateRight1 p.1 p.2).1 (rotateRight1 p.1 p.2).2 = p := by
  refine ext_carryBit fun k => ?_
  rw [← sub_add_cancel k 1, carryBit_rotateLeft1, carryBit_rotateRight1]

/-- Seventeen rotations to the left move every bit all the way round. -/
theorem rotateLeft1_seventeen (p : Word × Bool) : (fun p : Word × Bool => rotateLeft1 p.1 p.2)^[17] p = p :=
  ext_carryBit fun k => by
    have round : k + 17 • 1 = k := add_zero k
    simpa only [round] using carryBit_rotateLeft1_iterate p 17 k

end Sys2Proof.Machine

open Sys2Proof Sys2Proof.Machine

/-- Settles O42. -/
theorem oneBitShifts : Obligations.OneBitShifts := by
  intro m d r
  exact ⟨formRule_oneWord rfl (by decide) (fun _ => rfl) fun s => s.setRegCZS_resultCZS_of_eq (shiftLeft1_eq _) d,
    formRule_oneWord rfl (by decide) (fun _ => rfl) fun s => s.setRegCZS_resultCZS_of_eq (shiftRight1_eq _) d⟩

/-- Settles O43. -/
theorem rotatesThroughCarry : Obligations.RotatesThroughCarry := by
  intro m d r
  exact ⟨formRule_oneWord rfl (by decide) (fun _ => rfl) fun s => s.setRegCZS_resultCZS_of_eq (rotateLeft1_eq _ _) d,
    formRule_oneWord rfl (by decide) (fun _ => rfl) fun s => s.setRegCZS_resultCZS_of_eq (rotateRight1_eq _ _) d⟩

/-- Settles O44: the rotations to the right undo seventeen to the left, which change nothing. -/
theorem seventeenRotationsRestore : Obligations.SeventeenRotationsRestore := by
  intro v c
  refine ⟨rotateLeft1_seventeen (v, c), ?right, rotateRight1_rotateLeft1 (v, c), rotateLeft1_rotateRight1 (v, c)⟩
  case right =>
    have undo : Function.LeftInverse (fun p : Word × Bool => rotateLeft1 p.1 p.2)
        (fun p : Word × Bool => rotateRight1 p.1 p.2) := rotateLeft1_rotateRight1
    rw [← rotateLeft1_seventeen ((fun p : Word × Bool => rotateRight1 p.1 p.2)^[17] (v, c))]
    exact undo.iterate 17 (v, c)

/-- Settles O45. -/
theorem complementAndNegate : Obligations.ComplementAndNegate := by
  intro m d r
  exact ⟨formRule_oneWord rfl (by decide) (fun _ => rfl) fun s => s.setRegZS_resultZS_of_eq (not_eq_ofNat _) d,
    formRule_oneWord rfl (by decide) (fun _ => rfl) fun s => s.setRegCZS_resultCZS_of_eq (adder_negate _) d⟩

/-- Settles O46. -/
theorem bitwiseLogic : Obligations.BitwiseLogic := by
  intro m d r imm
  exact ⟨formRule_oneWord rfl (by decide) (fun _ => rfl) fun s => s.setRegZS_resultZS d _,
    formRule_twoWords rfl (by decide) (fun _ => rfl) fun s => s.setRegZS_resultZS d _,
    formRule_oneWord rfl (by decide) (fun _ => rfl) fun s => s.setRegZS_resultZS d _,
    formRule_twoWords rfl (by decide) (fun _ => rfl) fun s => s.setRegZS_resultZS d _,
    formRule_oneWord rfl (by decide) (fun _ => rfl) fun s => s.setRegZS_resultZS d _,
    formRule_twoWords rfl (by decide) (fun _ => rfl) fun s => s.setRegZS_resultZS d _⟩

end

section
/-! Flag control, calls, compare and test, and the I/O bus (spec/44_control.md, spec/45_compare_test.md,
spec/46_io.md). -/

namespace Sys2Proof.Machine

/-! ## SFL -/

/-- SFL changes at most the bit that its index names. -/
theorem applyFlagIndex_frame (s : State) (x : FlagIndex) :
    sameSwExcept [flagBit x] s (s.setSw (applyFlagIndex s.sw x)) := by
  intro j hj
  have hne : j ≠ flagBit x := by simpa using hj
  rw [State.setSw_sw, getLsbD_applyFlagIndex, if_neg fun h => hne h.1]

/-- The I flag keeps its value in user mode (R201). -/
theorem applyFlagIndex_of_user {sw : Word} {x : FlagIndex} (hu : flagU sw = true) (hx : flagBit x = 3) :
    applyFlagIndex sw x = sw := by
  simp [applyFlagIndex, hu, hx]

/-- Every other bit, and the I flag in kernel mode, gets the value of the index (R201). -/
theorem getLsbD_applyFlagIndex_flagBit {sw : Word} {x : FlagIndex} (h : ¬ (flagU sw = true ∧ flagBit x = 3)) :
    (applyFlagIndex sw x).getLsbD (flagBit x) = flagValue x := by
  rw [getLsbD_applyFlagIndex, if_pos ⟨rfl, fun h3 => h h3.symm⟩]

/-! ## SEX -/

/-- What a push and then a jump leave; the jump wins where the pointer is R7. -/
theorem State.push_setPc_effect (s : State) (d : Reg) (v target : Word) :
    ((s.push d v).setPc target).load (s.reg d) = v ∧ ((s.push d v).setPc target).reg .r7 = target
      ∧ (d ≠ .r7 → ((s.push d v).setPc target).reg d = s.reg d - 1)
      ∧ changesOnly [d, .r7] [] [s.reg d] s ((s.push d v).setPc target) := by
  obtain ⟨hregs, -, hmem, -⟩ := s.push_frame d v
  refine ⟨by simp, State.setPc_pc _ _, fun hd => by simp [hd], fun x hx => ?_, fun _ _ => rfl, hmem, rfl, rfl, rfl, rfl⟩
  obtain ⟨hd, h7⟩ : x ≠ d ∧ x ≠ .r7 := by simpa using hx
  rw [State.reg_setPc_of_ne _ _ _ h7, hregs x (by simpa using hd)]

/-- A register read after the push: the pointer is already decremented. -/
theorem State.push_reg (s : State) (d r : Reg) (v : Word) :
    (s.push d v).reg r = if r = d then s.reg d - 1 else s.reg r := by
  rw [State.push_eq, State.reg_setReg, State.store_reg]

/-! ## CMP and TST -/

/-- CMP sets the flags of the difference and changes nothing else (R216). -/
theorem State.compare_effect (s : State) (a b : Word) :
    flagsCZS (decide (b.toNat ≤ a.toNat)) (a - b) (s.compare a b) ∧ changesOnly [] [0, 1, 2] [] s (s.compare a b) := by
  rw [State.compare, adder_not_carry]
  refine ⟨⟨by simp, ?_, by simp⟩, State.setSw_frame fun j hj => ?_⟩
  · rw [State.setSw_sw, flagZ_setCZS]
    rfl
  · obtain ⟨h0, h1, h2⟩ : j ≠ 0 ∧ j ≠ 1 ∧ j ≠ 2 := by simpa using hj
    rw [State.setSw_sw, getLsbD_setCZS, if_neg h0, if_neg h1, if_neg h2]

/-- TST sets Z and S of the AND and changes nothing else (R218). -/
theorem State.testBits_effect (s : State) (a b : Word) :
    flagsZS (a &&& b) (s.testBits a b) ∧ changesOnly [] [1, 2] [] s (s.testBits a b) := by
  rw [State.testBits]
  refine ⟨⟨?_, by simp⟩, State.setSw_frame fun j hj => ?_⟩
  · rw [State.setSw_sw, flagZ_setZS]
    rfl
  · obtain ⟨h1, h2⟩ : j ≠ 1 ∧ j ≠ 2 := by simpa using hj
    rw [State.setSw_sw, getLsbD_setZS, if_neg h1, if_neg h2]

/-! ## The I/O bus -/

/-- A write to the bus is one access and nothing else (R225). -/
theorem State.ioWrite_effect (s : State) (a v : Word) :
    (s.ioWrite a v).ioTrace = s.ioTrace ++ [.write a v] ∧ (∀ x, (s.ioWrite a v).reg x = s.reg x)
      ∧ (s.ioWrite a v).sw = s.sw ∧ (s.ioWrite a v).mem = s.mem ∧ (s.ioWrite a v).ioScript = s.ioScript
      ∧ (s.ioWrite a v).irqScript = s.irqScript ∧ (s.ioWrite a v).draws = s.draws :=
  ⟨rfl, fun _ => rfl, rfl, rfl, rfl, rfl, rfl⟩

/-- A read of the bus into a register: one access, the answer in the register and in the trace, and nothing else of the
CPU changed (R225). -/
theorem State.ioReadTo_effect (s : State) (d : Reg) (a : Word) :
    (s.ioReadTo d a).ioTrace = s.ioTrace ++ [.read a ((s.ioReadTo d a).reg d)]
      ∧ (∀ v rest, s.ioScript = v :: rest →
          (s.ioReadTo d a).reg d = v ∧ (s.ioReadTo d a).ioScript = rest ∧ (s.ioReadTo d a).draws = s.draws)
      ∧ (s.ioScript = [] → (s.ioReadTo d a).ioScript = [] ∧ (s.ioReadTo d a).draws = s.draws + 1)
      ∧ sameRegsExcept [d] s (s.ioReadTo d a) ∧ (s.ioReadTo d a).sw = s.sw ∧ (s.ioReadTo d a).mem = s.mem
      ∧ (s.ioReadTo d a).irqScript = s.irqScript := by
  obtain ⟨hregs, hsw, hmem, hirq, htrace⟩ := s.ioRead_frame a
  rw [State.ioReadTo_eq]
  refine ⟨?_, fun v rest hscript => ?_, fun hscript => ?_, fun x hx => ?_, hsw, hmem, hirq⟩
  · rw [State.reg_setReg_same]
    exact htrace
  · rcases s.ioRead_cases a with ⟨v', rest', h, hread⟩ | ⟨h, -⟩
    · obtain ⟨rfl, rfl⟩ := List.cons.inj (hscript.symm.trans h)
      rw [hread]
      exact ⟨State.reg_setReg_same _ _ _, rfl, rfl⟩
    · cases hscript.symm.trans h
  · rcases s.ioRead_cases a with ⟨v', rest', h, -⟩ | ⟨-, hread⟩
    · cases hscript.symm.trans h
    · rw [hread]
      exact ⟨hscript, rfl⟩
  · have hd : x ≠ d := by simpa using hx
    rw [State.reg_setReg_of_ne _ _ _ _ hd, State.reg, hregs, State.reg]

end Sys2Proof.Machine

open Sys2Proof Sys2Proof.Machine

/-- Settles O48: the index of SFL is no register, so nothing traps. -/
theorem setOrClearFlag : Obligations.SetOrClearFlag := by
  intro m b r
  have hfields : fieldsOf (.sfl m (FlagIndex.ofBits b) r) = ⟨0x20, false, m, b, r.bits, 0⟩ := by simp [fieldsOf]
  refine formRule_oneWord hfields (by decide) (fun _ => rfl) fun s => ?_
  rw [← flagBit_ofBits, ← flagValue_ofBits]
  refine ⟨?_, State.setSw_frame (applyFlagIndex_frame s _)⟩
  split
  · next h => exact applyFlagIndex_of_user h.1 h.2
  · next h => exact getLsbD_applyFlagIndex_flagBit h

/-- Settles O49: the register form reads its target after the push. -/
theorem subroutineCalls : Obligations.SubroutineCalls := by
  intro m d r imm
  refine ⟨formRule_oneWord rfl (by decide) (fun _ => rfl) fun s => ?register,
    formRule_twoWords rfl (by decide) (fun _ => rfl) fun s => s.push_setPc_effect d s.pc imm⟩
  case register =>
    obtain ⟨hload, hjump, hrest⟩ := s.push_setPc_effect d s.pc ((s.push d s.pc).reg r)
    exact ⟨hload, hjump.trans (s.push_reg d r s.pc), hrest⟩

/-- Settles O50. -/
theorem compareAndTest : Obligations.CompareAndTest := by
  intro m d r imm
  exact ⟨formRule_oneWord rfl (by decide) (fun _ => rfl) fun s => s.compare_effect _ _,
    formRule_twoWords rfl (by decide) (fun _ => rfl) fun s => s.compare_effect _ _,
    formRule_oneWord rfl (by decide) (fun _ => rfl) fun s => s.testBits_effect _ _,
    formRule_twoWords rfl (by decide) (fun _ => rfl) fun s => s.testBits_effect _ _⟩

/-- Settles O51. -/
theorem ioWrites : Obligations.IoWrites := by
  intro m d r imm
  exact ⟨ioRule_of_guarded (encode_twoWords rfl (by decide)) (fun _ => rfl) fun s => s.ioWrite_effect _ _,
    ioRule_of_guarded (encode_oneWord rfl (by decide)) (fun _ => rfl) fun s => s.ioWrite_effect _ _,
    ioRule_of_guarded (encode_twoWords rfl (by decide)) (fun _ => rfl) fun s => s.ioWrite_effect _ _⟩

/-- Settles O52. -/
theorem ioReads : Obligations.IoReads := by
  intro m d r imm
  exact ⟨ioRule_of_guarded (encode_oneWord rfl (by decide)) (fun _ => rfl) fun s => s.ioReadTo_effect d _,
    ioRule_of_guarded (encode_twoWords rfl (by decide)) (fun _ => rfl) fun s => s.ioReadTo_effect d _⟩

end

section
/-! What comes back: entry and the handler's return (spec/60_exceptions.md R314), a call and its return
(spec/44_control.md R203), and memory from what it reads as. -/

namespace Sys2Proof.Machine

/-! ## The handler's return -/

/-- The two ways of removing the number that R314 gives: each raises R6 by one in kernel mode and leaves SW and memory
alone; the load also gives the number. -/
theorem exec_removeNumber {i : Instr} {d r : Reg} {h : State} (hkernel : h.user = false)
    (hi : i = .movRegPreInc .always d .r6 ∧ d ≠ .r6 ∧ d ≠ .r7 ∨ i = .assImm .always .r6 r 0x0001) :
    ∃ h1, exec i h = .next h1 ∧ h1.reg .r6 = h.reg .r6 + 1 ∧ h1.sw = h.sw ∧ h1.mem = h.mem
      ∧ (i = .movRegPreInc .always d .r6 → h1.reg d = h.load (h.reg .r6 + 1)) := by
  have free {rs : List Reg} (hu : h.user = true) : Reg.r6 ∉ rs := Bool.noConfusion (hkernel.symm.trans hu)
  rcases hi with ⟨rfl, hd6, -⟩ | rfl
  · obtain ⟨hload, hptr⟩ := pop_setReg_regs h hd6
    exact ⟨_, exec_movRegPreInc_pop rfl free, hptr, rfl, rfl, fun _ => hload⟩
  · exact ⟨_, guarded_namesR6_effect (m := .always) rfl free _, State.reg_setReg_same _ _ _, rfl, rfl, nofun⟩

/-- A status word with clear reserved bits is not changed by the mask of a kernel write (R33). -/
theorem and_mask_of_reservedClear {s : State} (h : s.reservedClear) : s.sw &&& 0xFF3F = s.sw := by
  obtain ⟨h6, h7⟩ := h
  apply BitVec.eq_of_getLsbD_eq
  intro j hj
  have hmask : (0xFF3F : Word).getLsbD j = decide (j ≠ 6 ∧ j ≠ 7) := by
    interval_cases j <;> rfl
  rw [BitVec.getLsbD_and, hmask]
  by_cases h : j = 6 ∨ j = 7
  · rcases h with rfl | rfl
    · rw [h6, Bool.false_and]
    · rw [h7, Bool.false_and]
  · rw [decide_eq_true (by omega), Bool.and_true]

/-- The frame of an entry, as its three words. -/
theorem State.enter_frame (s : State) (vec n : Word) (c : Bool) :
    (s.enter vec n c).load (s.reg .r6) = s.reg .r7 ∧ (s.enter vec n c).load (s.reg .r6 - 1) = s.sw
      ∧ (s.enter vec n c).load (s.reg .r6 - 2) = n ∧ (s.enter vec n c).reg .r6 = s.reg .r6 - 3 := by
  obtain ⟨hpc, hsw, hn, hr6, -⟩ := s.enter_entered vec n c
  exact ⟨hpc, hsw, hn, hr6⟩

/-! ## The call -/

/-- The push of the return address and the jump, of both SEX forms, where the pointer is not R7. -/
theorem exec_sex {i : Instr} {d r : Reg} {imm : Word} {s : State}
    (hi : i = .sexReg .always d r ∨ i = .sexImm .always d r imm) (hd : d ≠ .r7)
    (hp : s.user = true → privileged i = false) :
    ∃ t, exec i s = .next t ∧ t.load (s.reg d) = s.reg .r7 ∧ t.reg d = s.reg d - 1 := by
  rcases hi with rfl | rfl
  · obtain ⟨hload, -, hptr, -⟩ := s.push_setPc_effect d s.pc ((s.push d s.pc).reg r)
    exact ⟨_, guarded_effect (m := .always) rfl (fun hu => (namesR6_both d r).trans (hp hu)) _, hload, hptr hd⟩
  · obtain ⟨hload, -, hptr, -⟩ := s.push_setPc_effect d s.pc imm
    exact ⟨_, guarded_effect (m := .always) rfl (fun hu => (namesR6_dst d r).trans (hp hu)) _, hload, hptr hd⟩

/-- A call form that is not privileged has a pointer other than R6. -/
theorem sex_pointer_ne_r6 {i : Instr} {d r : Reg} {imm : Word}
    (hi : i = .sexReg .always d r ∨ i = .sexImm .always d r imm) (hp : privileged i = false) : d ≠ .r6 := by
  rintro rfl
  rcases hi with rfl | rfl <;> simp [privileged, dstUsed, fieldUse, dstField] at hp

/-! ## Memory from what it reads as -/

/-- In a canonical memory the cells are the octets that read as something else than an unlisted one. -/
theorem Memory.mem_cells_iff {m : Memory} (h : m.wf = true) (c : Host.Cell) :
    c ∈ m.cells ↔ m.byteAt c.1 = c.2 ∧ c.2 ≠ unlistedByte := by
  obtain ⟨hsorted, hlisted⟩ := (Memory.wf_iff m).mp h
  constructor
  · intro hc
    exact ⟨lookupByte_of_mem hsorted hc, (hlisted c hc).1⟩
  · rintro ⟨hread, hne⟩
    have hc := mem_of_lookupByte (n := c.1) (cs := m.cells) (hread.trans_ne hne)
    rwa [show lookupByte c.1 m.cells = c.2 from hread] at hc

end Sys2Proof.Machine

open Sys2Proof Sys2Proof.Machine

/-- Settles O24: the number stands at the lowered pointer plus one, SW and R7 above it, which the return pops. -/
theorem entryThenReturnRestores : Obligations.EntryThenReturnRestores := by
  intro s h vector number clearI d r i hi hres hkernel hptr hframe
  obtain ⟨hpc, hsw, hn, hr6⟩ := s.enter_frame vector number clearI
  simp only [List.mem_cons, List.not_mem_nil, or_false, forall_eq_or_imp, forall_eq, hpc, hsw, hn] at hframe
  obtain ⟨hpc, hsw, hn⟩ := hframe
  rw [hr6] at hptr
  obtain ⟨h1, hexec, h1ptr, h1sw, h1mem, h1num⟩ := exec_removeNumber hkernel hi
  rw [hptr] at h1ptr h1num
  have hnum : s.reg .r6 - 3 + 1 = s.reg .r6 - 2 := by bv_omega
  rw [hnum] at h1ptr h1num
  refine ⟨h1, hexec, fun hload => (h1num hload).trans hn, fun h2 hsame => ?_⟩
  obtain ⟨hregs, h2sw, h2mem⟩ := hsame
  have h2ptr : h2.reg .r6 = s.reg .r6 - 2 := (hregs .r6 (by decide)).trans h1ptr
  have h2kernel : h2.user = false := (congrArg flagU (h2sw.trans h1sw)).trans hkernel
  have h2load (a : Word) : h2.load a = h.load a := congrArg (·.readWord a) (h2mem.trans h1mem)
  refine ⟨_, exec_tmc_of_kernel (imm := 0) (.inl rfl) rfl h2kernel, ?r6, ?r7, ?sw, ?frame, h2.returnFromTrap_mem⟩
  case r6 =>
    rw [State.returnFromTrap_reg, h2ptr]
    exact BitVec.sub_add_cancel _ _
  case r7 =>
    rw [State.returnFromTrap_reg, h2ptr, if_pos rfl, BitVec.sub_add_cancel, h2load, hpc]
  case sw =>
    have haddr : s.reg .r6 - 2 + 1 = s.reg .r6 - 1 := by bv_omega
    rw [State.returnFromTrap_sw, writeSw_of_kernel h2kernel, h2ptr, haddr, h2load, hsw]
    exact and_mask_of_reservedClear hres
  case frame =>
    obtain ⟨hframe, -⟩ := h2.returnFromTrap_frame
    exact hframe

/-- Settles O25: the pop into R7 finds the address that the call pushed. -/
theorem callThenReturnComesBack : Obligations.CallThenReturnComesBack := by
  intro i s d r imm hi hd hp
  obtain ⟨t, hexec, hload, hptr⟩ := exec_sex hi hd hp
  refine ⟨t, hexec, fun h huser hsame hsaved => ?_⟩
  have hr6 : h.user = true → Reg.r6 ∉ [Reg.r7, d] := fun hu h6 => by
    have hne := sex_pointer_ne_r6 hi (hp (huser ▸ hu))
    simp [hne.symm] at h6
  have hback : h.reg d + 1 = s.reg d := by rw [hsame, hptr, BitVec.sub_add_cancel]
  obtain ⟨hjump, hpop⟩ := pop_setReg_regs h hd.symm
  rw [hback] at hjump hpop
  exact ⟨_, exec_movRegPreInc_pop rfl hr6, hjump.trans (hsaved.trans hload), hpop⟩

/-- Settles O53: two strictly rising lists with the same members are the same. -/
theorem equalReadsMeanEqualMemories : Obligations.EqualReadsMeanEqualMemories := by
  intro m n hm hn hreads
  obtain ⟨hsortedM, -⟩ := (Memory.wf_iff m).mp hm
  obtain ⟨hsortedN, -⟩ := (Memory.wf_iff n).mp hn
  have hirrefl : Std.Irrefl fun c d : Host.Cell => c.1 < d.1 := ⟨fun _ => Nat.lt_irrefl _⟩
  have hantisymm : Std.Antisymm fun c d : Host.Cell => c.1 < d.1 := ⟨fun _ _ h h' => absurd h' (Nat.lt_asymm h)⟩
  have hcells : m.cells = n.cells := hsortedM.eq_of_mem_iff hsortedN fun c => by
    rw [Memory.mem_cells_iff hm, Memory.mem_cells_iff hn, hreads]
  cases m
  cases n
  exact congrArg Memory.mk hcells

end

section
/-! The assembler (spec/47_assembler.md): what its selection gives, how each form can be written, and HOP. -/

namespace Sys2Proof.Asm

open Machine

/-! ## The selection of the form (R242) -/

/-- What the selection promises of an instruction: 0 in unused fields, the mode asked for, and no unused pair. -/
def wellSelected (m : CondMode) (i : Instr) : Prop := wellFormed i = true ∧ i.mode = m ∧ isUnused i = false

theorem wellSelected_of_some {m : CondMode} {i j : Instr} (hi : wellSelected m i) (h : some i = some j) :
    wellSelected m j :=
  Option.some.inj h ▸ hi

/-- Every row of the selection gives such an instruction; SFL's row gives none for a value that is no index. -/
theorem selectForm_wellSelected {m : CondMode} {mn : Mnemonic} {ops : List HwOperand} {i : Instr}
    (h : selectForm m mn ops = some i) : wellSelected m i := by
  unfold selectForm at h
  split at h <;> first
    | exact wellSelected_of_some ⟨rfl, rfl, rfl⟩ h
    | (cases h)
    | (obtain ⟨x, -, rfl⟩ := Option.map_eq_some_iff.mp h
       exact ⟨rfl, rfl, rfl⟩)

/-! ## How a form is written -/

/-- An immediate word as the exact value of an expression. -/
def valueOf (w : Word) : Int := w.toNat

/-- The mnemonic and the operands that spell a defined form; an unused pair has no spelling. -/
def spelling : Instr → Mnemonic × List HwOperand
  | .movRegReg _ d r => (.mov, [.reg d, .reg r])
  | .movRegImm _ d _ i => (.mov, [.reg d, .imm (valueOf i)])
  | .movRegInd _ d r => (.mov, [.reg d, .ind r])
  | .movRegAbs _ d _ i => (.mov, [.reg d, .abs (valueOf i)])
  | .movIndReg _ d r => (.mov, [.ind d, .reg r])
  | .movIndImm _ d _ i => (.mov, [.ind d, .imm (valueOf i)])
  | .movIndInd _ d r => (.mov, [.ind d, .ind r])
  | .movIndAbs _ d _ i => (.mov, [.ind d, .abs (valueOf i)])
  | .movRegPostInc _ d r => (.mov, [.reg d, .postInc r])
  | .movAbsReg _ _ r i => (.mov, [.abs (valueOf i), .reg r])
  | .movPostIncReg _ d r => (.mov, [.postInc d, .reg r])
  | .movAbsInd _ _ r i => (.mov, [.abs (valueOf i), .ind r])
  | .mvl _ d r => (.mvl, [.reg d, .reg r])
  | .movRegDisp _ d r i => (.mov, [.reg d, .disp r (valueOf i)])
  | .mvh _ d r => (.mvh, [.reg d, .reg r])
  | .movIndDisp _ d r i => (.mov, [.ind d, .disp r (valueOf i)])
  | .nul _ d _ => (.nul, [.reg d])
  | .movDispReg _ d r i => (.mov, [.disp d (valueOf i), .reg r])
  | .mkw _ d r => (.mkw, [.reg d, .reg r])
  | .movDispInd _ d r i => (.mov, [.disp d (valueOf i), .ind r])
  | .movRegSw _ d _ => (.mov, [.reg d, .sw])
  | .movAbsSw _ _ _ i => (.mov, [.abs (valueOf i), .sw])
  | .movSwReg _ d _ => (.mov, [.sw, .reg d])
  | .movSwImm _ _ _ i => (.mov, [.sw, .imm (valueOf i)])
  | .movPostDecReg _ d r => (.mov, [.postDec d, .reg r])
  | .movPostDecImm _ d _ i => (.mov, [.postDec d, .imm (valueOf i)])
  | .movPostDecSw _ d _ => (.mov, [.postDec d, .sw])
  | .outAbsReg _ _ r i => (.mov, [.ioImm (valueOf i), .reg r])
  | .movRegPreInc _ d r => (.mov, [.reg d, .preInc r])
  | .movSwPreInc _ _ r => (.mov, [.sw, .preInc r])
  | .addReg _ d r => (.add, [.reg d, .reg r])
  | .addImm _ d _ i => (.add, [.reg d, .imm (valueOf i)])
  | .adcReg _ d r => (.adc, [.reg d, .reg r])
  | .adcImm _ d _ i => (.adc, [.reg d, .imm (valueOf i)])
  | .assReg _ d r => (.ass, [.reg d, .reg r])
  | .assImm _ d _ i => (.ass, [.reg d, .imm (valueOf i)])
  | .subReg _ d r => (.sub, [.reg d, .reg r])
  | .sbcReg _ d r => (.sbc, [.reg d, .reg r])
  | .incReg _ d r => (.inc, [.reg d, .reg r])
  | .decReg _ d r => (.dec, [.reg d, .reg r])
  | .shlReg _ d r => (.shl, [.reg d, .reg r])
  | .rolReg _ d r => (.rol, [.reg d, .reg r])
  | .shrReg _ d r => (.shr, [.reg d, .reg r])
  | .rorReg _ d r => (.ror, [.reg d, .reg r])
  | .notReg _ d r => (.not, [.reg d, .reg r])
  | .negReg _ d r => (.neg, [.reg d, .reg r])
  | .anlReg _ d r => (.anl, [.reg d, .reg r])
  | .anlImm _ d _ i => (.anl, [.reg d, .imm (valueOf i)])
  | .orlReg _ d r => (.orl, [.reg d, .reg r])
  | .orlImm _ d _ i => (.orl, [.reg d, .imm (valueOf i)])
  | .xorReg _ d r => (.xor, [.reg d, .reg r])
  | .xorImm _ d _ i => (.xor, [.reg d, .imm (valueOf i)])
  | .sfl _ x _ => (.sfl, [.imm x.bits.toNat])
  | .sexReg _ d r => (.sex, [.reg d, .reg r])
  | .sexImm _ d _ i => (.sex, [.reg d, .imm (valueOf i)])
  | .tmcReg _ _ r => (.tmc, [.reg r])
  | .tmcImm _ _ _ i => (.tmc, [.imm (valueOf i)])
  | .cmpReg _ d r => (.cmp, [.reg d, .reg r])
  | .cmpImm _ d _ i => (.cmp, [.reg d, .imm (valueOf i)])
  | .tstReg _ d r => (.tst, [.reg d, .reg r])
  | .tstImm _ d _ i => (.tst, [.reg d, .imm (valueOf i)])
  | .outIndReg _ d r => (.mov, [.ioReg d, .reg r])
  | .outIndImm _ d _ i => (.mov, [.ioReg d, .imm (valueOf i)])
  | .inRegInd _ d r => (.mov, [.reg d, .ioReg r])
  | .inRegAbs _ d _ i => (.mov, [.reg d, .ioImm (valueOf i)])
  | _ => (.nop, [])

theorem toWord_valueOf (w : Word) : toWord (valueOf w) = w := toWord_toNat w

/-- A form with an immediate word is selected through the word's value. -/
theorem some_valueOf (f : Word → Instr) (w : Word) : some (f (toWord (valueOf w))) = some (f w) := by
  rw [toWord_valueOf]

/-- The number of a flag index spells it (R241). -/
theorem flagIndexOfValue_bits (x : FlagIndex) : flagIndexOfValue x.bits.toNat = some x := by
  cases x <;> rfl

/-- A field that a well-formed instruction does not use is 0. -/
theorem dstField_of_wellFormed {i : Instr} (h : wellFormed i = true) (hu : (fieldUse i).1 = .unused) :
    dstField i = some .r0 := by
  obtain ⟨hd, -⟩ : dstField i = some .r0 ∧ srcWellFormed i = true := by
    simpa [wellFormed, dstWellFormed, hu] using h
  exact hd

/-- A field that a well-formed instruction does not use is 0. -/
theorem srcField_of_wellFormed {i : Instr} (h : wellFormed i = true) (hu : (fieldUse i).2 = .unused) :
    srcField i = .r0 := by
  obtain ⟨-, hr⟩ : dstWellFormed i = true ∧ srcField i = .r0 := by
    simpa [wellFormed, srcWellFormed, hu] using h
  exact hr

/-- The spelling of a well-formed defined form selects exactly it. -/
theorem selectForm_spelling {i : Instr} (hw : wellFormed i = true) (hu : isUnused i = false) :
    selectForm i.mode (spelling i).1 (spelling i).2 = some i := by
  cases i with
  | movRegReg | movRegInd | movIndReg | movIndInd | movRegPostInc | movPostIncReg | mvl | mvh | mkw | movPostDecReg
  | movRegPreInc | addReg | adcReg | assReg | subReg | sbcReg | incReg | decReg | shlReg | rolReg | shrReg | rorReg
  | notReg | negReg | anlReg | orlReg | xorReg | sexReg | cmpReg | tstReg | outIndReg | inRegInd => rfl
  | movRegDisp m d r i | movIndDisp m d r i | movDispReg m d r i | movDispInd m d r i =>
    exact some_valueOf _ i
  | movRegImm m d r i | movRegAbs m d r i | movIndImm m d r i | movIndAbs m d r i | movPostDecImm m d r i
  | addImm m d r i | adcImm m d r i | assImm m d r i | anlImm m d r i | orlImm m d r i | xorImm m d r i
  | sexImm m d r i | cmpImm m d r i | tstImm m d r i | outIndImm m d r i | inRegAbs m d r i =>
    obtain rfl : r = .r0 := srcField_of_wellFormed hw rfl
    exact some_valueOf _ i
  | nul m d r | movRegSw m d r | movSwReg m d r | movPostDecSw m d r =>
    obtain rfl : r = .r0 := srcField_of_wellFormed hw rfl
    rfl
  | movAbsReg m d r i | movAbsInd m d r i | outAbsReg m d r i =>
    obtain rfl : d = .r0 := Option.some.inj (dstField_of_wellFormed hw rfl)
    exact some_valueOf _ i
  | movSwPreInc m d r | tmcReg m d r =>
    obtain rfl : d = .r0 := Option.some.inj (dstField_of_wellFormed hw rfl)
    rfl
  | movAbsSw m d r i | movSwImm m d r i | tmcImm m d r i =>
    obtain rfl : d = .r0 := Option.some.inj (dstField_of_wellFormed hw rfl)
    obtain rfl : r = .r0 := srcField_of_wellFormed hw rfl
    exact some_valueOf _ i
  | sfl m x r =>
    obtain rfl : r = .r0 := srcField_of_wellFormed hw rfl
    exact congrArg (Option.map fun x => Instr.sfl m x .r0) (flagIndexOfValue_bits x)
  | _ => exact Bool.noConfusion hu

/-! ## HOP (R253) -/

/-- The expansion of `HOP x`: `x-$$`. -/
def hopExpr (x : Name) : Expr := .bin .sub (.name x) .next

/-- A name that stands for an address has the distance from the next instruction to it as the value of `x-$$`. -/
theorem eval_hopExpr {x : Name} {label : Word} {env : Name → Option Binding}
    (h : env x = some (.value label.toNat)) (here next : Int) :
    eval evalFuel env here next (hopExpr x) = .ok (label.toNat - next) := by
  simp [evalFuel, hopExpr, eval, h, BinOp.apply]

/-- The distance from one address to another, added to the first modulo 65536, is the second. -/
theorem add_toWord_sub (a b : Word) : a + toWord ((b.toNat : Int) - a.toNat) = b := by
  rw [toWord, sub_eq_add_neg, BitVec.ofInt_add, BitVec.ofInt_neg, BitVec.ofInt_natCast, BitVec.ofInt_natCast]
  simp

end Sys2Proof.Asm

open Sys2Proof Sys2Proof.Machine

/-- Settles O56. -/
theorem selectedFormsAreWellFormed : Obligations.SelectedFormsAreWellFormed :=
  fun _ _ _ _ => Asm.selectForm_wellSelected

/-- Settles O57: by its spelling. -/
theorem everyFormCanBeAssembled : Obligations.EveryFormCanBeAssembled :=
  fun _ hw hu => ⟨_, _, Asm.selectForm_spelling hw hu⟩

/-- Settles O58. -/
theorem hopReachesItsLabel : Obligations.HopReachesItsLabel := by
  intro m userSp x label env here s hx hpass
  refine ⟨.label (.name x), Asm.hopExpr x, label.toNat - (s.reg .r7).toNat,
    .assImm m .r7 .r0 (Asm.toWord (label.toNat - (s.reg .r7).toNat)), _, rfl, rfl, rfl, Asm.eval_hopExpr hx _ _, rfl,
    guarded_namesR6_effect (rs := [.r7]) hpass (fun _ => by decide) _, s.setReg_valueOnly_of_eq ?_ .r7⟩
  exact Asm.add_toWord_sub _ _

end
